-- ==== Sys2Proof/Word.lean ====
section
/-! DEFINITION. The word types of the block and its plainest arithmetic.

The spec's quantities are all unsigned (30_encoding.md R76).  A bit vector is used only for what the spec slices,
ORs or puts on a port; counters and ceilings are natural numbers. -/

namespace Sys2Proof

/-- One byte on the bus or on a port (20_memory.md R46). -/
abbrev Byte := BitVec 8

/-- A device memory offset (10_state.md R12). -/
abbrev Offset := BitVec 16

/-- A command word `cmd_word`, format CMD (30_encoding.md R60). -/
abbrev CmdWord := BitVec 18

/-- A primitive word, format PRIM (30_encoding.md R70). -/
abbrev PrimWord := BitVec 10

/-- A positive natural number, stored as its predecessor, so that zero cannot be written
(the constraints `integer >= 1` and `positive integer` of 00_scope.md R6). -/
structure Pos where
  pred : Nat
  deriving DecidableEq, Repr, Inhabited

/-- The number a `Pos` stands for. -/
abbrev Pos.val (p : Pos) : Nat := p.pred + 1

end Sys2Proof
end

