-- ==== Sys2Proof/Syntax.lean ====
section
/-! DEFINITION. The instructions: one constructor for each row of the opcode table.

In this block an instruction is a host command or a phase primitive (00_scope.md R5). -/

namespace Sys2Proof

/-- The seven instructions. -/
inductive Instr where
  /-- `INIT` (40_init.md R80) -/
  | init
  /-- `READ_BYTE off` (42_read_byte.md R110) -/
  | readByte (off : Offset)
  /-- `INVALIDATE` (43_invalidate.md R130) -/
  | invalidate
  /-- `START` (41_primitives.md R92) -/
  | start
  /-- `TX(b)` (41_primitives.md R93) -/
  | tx (b : Byte)
  /-- `RX_NACK` (41_primitives.md R94) -/
  | rxNack
  /-- `STOP` (41_primitives.md R95) -/
  | stop
  deriving DecidableEq, Repr, Inhabited

/-- The two word formats of the opcode table: what the host presents, and what the engine issues. -/
inductive Format where
  | cmd
  | prim
  deriving DecidableEq, Repr, Inhabited

/-- The format of an instruction's word. -/
def Instr.format : Instr → Format
  | .init => .cmd
  | .readByte _ => .cmd
  | .invalidate => .cmd
  | .start => .prim
  | .tx _ => .prim
  | .rxNack => .prim
  | .stop => .prim

end Sys2Proof
end

