-- ==== Sys2Proof/Decode.lean ====
section
/-! DEFINITION. The decoder and the encoder of command words (30_encoding.md R60, R61) and primitive words (R70).

A word is read either on the command port or where the engine hands a primitive over; which of the two it is, is part of
the word here (`Fetched`).  As bytes (for the host's table only: the block has no instruction memory) a word is laid out
least significant byte first, a command word in three bytes and a primitive word in two, the bits above it zero. -/

namespace Sys2Proof

/-- Why a word is no instruction. -/
inductive DecodeError where
  /-- the reserved command code `0b00` (30_encoding.md R64) -/
  | reservedCommand
  /-- a bit above the word's width is set, so the bytes hold no command or primitive word -/
  | paddingBits
  /-- neither three bytes (a command word) nor two (a primitive word) -/
  | noWordOfThisLength
  deriving DecidableEq, Repr, Inhabited

/-- A word, with the place it is read. -/
inductive Fetched where
  | cmd (w : CmdWord)
  | prim (w : PrimWord)
  deriving DecidableEq, Repr, Inhabited

/-- `opc`, bits 17:16 of a command word (30_encoding.md R60). -/
def CmdWord.opc (w : CmdWord) : BitVec 2 := w.extractLsb' 16 2

/-- `offs`, bits 15:0 of a command word (30_encoding.md R60). -/
def CmdWord.offs (w : CmdWord) : Offset := w.extractLsb' 0 16

/-- The kind, bits 9:8 of a primitive word (30_encoding.md R70). -/
def PrimWord.kind (w : PrimWord) : BitVec 2 := w.extractLsb' 8 2

/-- The data, bits 7:0 of a primitive word (30_encoding.md R70). -/
def PrimWord.data (w : PrimWord) : Byte := w.extractLsb' 0 8

/-- A command word read (30_encoding.md R61, R64). -/
def decodeCmd (w : CmdWord) : Except DecodeError Instr :=
  match (CmdWord.opc w).toNat with
  | 1 => .ok .init
  | 2 => .ok (.readByte (CmdWord.offs w))
  | 3 => .ok .invalidate
  | _ => .error .reservedCommand

/-- A primitive word read; every word is a primitive (30_encoding.md R70). -/
def decodePrim (w : PrimWord) : Instr :=
  match (PrimWord.kind w).toNat with
  | 0 => .start
  | 1 => .tx (PrimWord.data w)
  | 2 => .rxNack
  | _ => .stop

/-- A word read, wherever it stands. -/
def decode : Fetched → Except DecodeError Instr
  | .cmd w => decodeCmd w
  | .prim w => .ok (decodePrim w)

/-- The word that some bytes hold. -/
def Fetched.ofBytes : List Byte → Except DecodeError Fetched
  | [b0, b1] =>
    if b1.extractLsb' 2 6 = 0 then .ok (.prim ((b1 ++ b0).extractLsb' 0 10)) else .error .paddingBits
  | [b0, b1, b2] =>
    if b2.extractLsb' 2 6 = 0 then .ok (.cmd ((b2 ++ (b1 ++ b0)).extractLsb' 0 18)) else .error .paddingBits
  | _ => .error .noWordOfThisLength

/-- Any bytes read: an instruction, or a rejection by name. -/
def decodeBytes (bs : List Byte) : Except DecodeError Instr :=
  match Fetched.ofBytes bs with
  | .ok f => decode f
  | .error e => .error e

/-- A command word written from its fields (30_encoding.md R60). -/
def cmdWordOf (opc : BitVec 2) (offs : Offset) : CmdWord := opc ++ offs

/-- A primitive word written from its fields (30_encoding.md R70). -/
def primWordOf (kind : BitVec 2) (data : Byte) : PrimWord := kind ++ data

/-- The word of an instruction; a field the spec calls ignored is written as zero (30_encoding.md R61, R70;
95_test_vectors.md T1 to T9). -/
def encode : Instr → Fetched
  | .init => .cmd (cmdWordOf 1#2 0#16)
  | .readByte off => .cmd (cmdWordOf 2#2 off)
  | .invalidate => .cmd (cmdWordOf 3#2 0#16)
  | .start => .prim (primWordOf 0#2 0#8)
  | .tx b => .prim (primWordOf 1#2 b)
  | .rxNack => .prim (primWordOf 2#2 0#8)
  | .stop => .prim (primWordOf 3#2 0#8)

/-- The bytes of a word, least significant first. -/
def Fetched.toBytes : Fetched → List Byte
  | .prim w => [w.extractLsb' 0 8, (w.extractLsb' 8 2).setWidth 8]
  | .cmd w => [w.extractLsb' 0 8, w.extractLsb' 8 8, (w.extractLsb' 16 2).setWidth 8]

/-- The bytes of a row of the host's table: `nbits` bits in whole bytes, numbered from the least significant. -/
def tableBytes (nbits w : Nat) : List Byte :=
  (List.range ((nbits + 7) / 8)).map fun k => BitVec.ofNat 8 (w >>> (8 * k))

/-- The instruction the decoder reads from an instruction of `nbits` bits whose bits are `w`. -/
def decodeTableWord (nbits w : Nat) : Option Instr :=
  match decodeBytes (tableBytes nbits w) with
  | .ok i => some i
  | .error _ => none

end Sys2Proof
end

