-- ==== Sys2Proof/Config.lean ====
section
/-! DEFINITION. What one instance of the hardware fixes at build time (00_scope.md R6), the vocabulary its tables are
written in, what the bus environment may do (41_primitives.md R101), and the free values.

A free value is an `opaque` constant without a body: nothing in Lean can find out what it is. -/

namespace Sys2Proof

/-- The ten Bus Phases, in the order the spec numbers them, `Idle` = 0 to `Stopped` = 9 (10_state.md R20). -/
inductive Phase where
  | idle
  | startPending
  | deviceSelected
  | addressHighSent
  | addressLowSent
  | repeatedStartPending
  | readSelected
  | byteReceived
  | writeAckReceived
  | stopped
  deriving DecidableEq, Repr, Inhabited

/-- The phase kinds `Classify` distinguishes (41_primitives.md R100). -/
inductive PhaseKind where
  | startK
  | selWK
  | selRK
  | addrK
  | fillK
  | recvK
  deriving DecidableEq, Repr, Inhabited

/-- The five status classes (30_encoding.md R71). -/
inductive StatusClass where
  | success
  | notReady
  | arbLost
  | rejected
  | unexpected
  deriving DecidableEq, Repr, Inhabited

/-- The seven error classes, in the order of their numbers 1 to 7 (60_exceptions.md R150). -/
inductive ErrorClass where
  | startTimeout
  | notReady
  | retryExhausted
  | arbLost
  | rejected
  | protocol
  | phaseTimeout
  deriving DecidableEq, Repr, Inhabited

/-- The argument of `raise E(info)` (00_scope.md R7): benign and terminal forms differ in it alone
(60_exceptions.md R154). -/
inductive ErrorInfo where
  | plain
  | benign
  | terminal
  deriving DecidableEq, Repr, Inhabited

/-- The device addressing-width variant `ADDR_MODE` (00_scope.md R6). -/
inductive AddrMode where
  | addr16
  | addr8f
  deriving DecidableEq, Repr, Inhabited

/-- `ADDR_MODE` and `DEV_CLASS_ADDR` together.  The bits 30_encoding.md R66 requires to be zero (bit 0, and in `ADDR8F`
bits 3:1) are not part of the datum, so the ill-formed configurations of U13 cannot be written. -/
inductive AddrCfg where
  /-- `ADDR16`; `cls` is `DEV_CLASS_ADDR[7:1]`. -/
  | addr16 (cls : BitVec 7)
  /-- `ADDR8F`; `cls` is `DEV_CLASS_ADDR[7:4]`. -/
  | addr8f (cls : BitVec 4)
  deriving DecidableEq, Repr, Inhabited

/-- One row of a `Classify` table: a status `s` of a phase of kind `kind` with `s AND mask = pattern` has class `cls`
(the form of the table of 30_encoding.md R71). -/
structure ClassRow where
  kind    : PhaseKind
  mask    : Byte
  pattern : Byte
  cls     : StatusClass
  deriving DecidableEq, Repr, Inhabited

/-- One row of a `DiagCode` table: error class, `raise` argument, phase, and a mask and pattern for the `LAST_STATUS` it
may also read, with the character it yields (60_exceptions.md R172). -/
structure DiagRow where
  error   : ErrorClass
  info    : ErrorInfo
  phase   : Phase
  mask    : Byte
  pattern : Byte
  char    : Byte
  deriving DecidableEq, Repr, Inhabited

/-- The open build-time parameters of 00_scope.md R6, as plain data.  `Classify` and `DiagCode` are tables, which reach
every function of their arguments (`Laws/Tables.lean` proves it); `DivFor100k` is the free function
`Config.divFor100k`. -/
structure Params where
  /-- `RETRY_MAX`, at least 1. -/
  retryMax   : Pos
  /-- `POLL_MAX`, at least 1. -/
  pollMax    : Pos
  /-- `ADDR_MODE` and `DEV_CLASS_ADDR`. -/
  addr       : AddrCfg
  /-- `F_SYS`, hertz. -/
  fSys       : Pos
  /-- `F_THRESHOLD`, hertz. -/
  fThreshold : Pos
  /-- `DIV_LOW`. -/
  divLow     : Nat
  /-- `DIAG_ENABLE`. -/
  diagEnable : Bool
  /-- `DiagCode`: the first row that fits gives the character; where none fits there is none. -/
  diagRows   : List DiagRow
  /-- `Classify`: the first row that fits gives the class; where none fits the class is `Unexpected`. -/
  classRows  : List ClassRow
  deriving DecidableEq, Repr, Inhabited

/-- Where a bus transaction stands, as the bus and the device see it: part of the hidden state of 10_state.md R36 (b).
This master holds the bus unless it is `free`. -/
inductive BusStage where
  /-- no transaction of this master -/
  | free
  /-- a start condition was sent, a select byte is due -/
  | started
  /-- selected for writing; `received` bytes have been acknowledged since the select byte -/
  | writing (received : Nat)
  /-- selected for reading -/
  | reading
  deriving DecidableEq, Repr, Inhabited

/-- The environment's hidden state, all but the device's memory (10_state.md R36).  The engine's rules never read it. -/
structure Hidden where
  /-- (b) whether, and how, this master holds the bus -/
  bus            : BusStage
  /-- (c) the primitives handed to the bus controller that it has not yet performed, oldest first -/
  requests       : List PrimWord
  /-- (a) how many selections the device will still refuse while completing a prior write -/
  busy           : Nat
  /-- (d) the device's internal address pointer -/
  ptr            : Offset
  /-- (d) the device's write buffer: the data bytes of the present write transaction -/
  wbuf           : List Byte
  /-- a property of the device: how many selections a write keeps it busy for -/
  writeTime      : Nat
  /-- a property of the device: whether it is write-protected (20_memory.md R49) -/
  writeProtected : Bool
  deriving DecidableEq, Repr, Inhabited

/-- What the environment does between the engine's previous step and one sample of `CTL_DONE` (41_primitives.md R101). -/
inductive EnvMove where
  /-- Any environment at all: the phase completes or not, `CTL_STATUS` and the received byte are any bytes, the hidden
  state becomes anything, and the device's memory changes by any finite list of byte writes. -/
  | oracle (done : Bool) (status data : Byte) (hidden : Hidden) (writes : List (Offset × Byte))
  /-- The chosen device oracle of `Machine/Device.lean` (20_memory.md R41): a bus controller and a device that do
  what they are asked. -/
  | device
  deriving DecidableEq, Repr, Inhabited

/-- The parameters this hardware was built with: open (00_scope.md R6), so no proof can see them. -/
opaque Config.build : Params

/-- `DivFor100k`, the computed divider setting for a system clock frequency: open (40_init.md R81). -/
opaque Config.divFor100k : Nat → Nat

/-- The environment's move at the `n`-th free draw: unconstrained (41_primitives.md R101). -/
opaque Config.freeMove : Nat → EnvMove

/-- The byte at the `n`-th free draw: `CTL_STATUS` and a received `CTL_DATA` at any moment but their sample
(70_reset_and_hazards.md R190), `rsp_data` where 30_encoding.md R63 leaves it unspecified, `diag_char` without
`diag_valid`. -/
opaque Config.freeByte : Nat → Byte

end Sys2Proof
end

