-- ==== Sys2Proof/Machine/State.lean ====
section
/-! DEFINITION. The state of the block and of its environment, as plain data, and the reasons a step can stop.

Names are the spec's (10_state.md).  The field `seq` and the fields from `received` on are the model's own; the assumption log
names each. -/

namespace Sys2Proof.Machine

/-- The operation in progress, register `op` (10_state.md R11): `NONE` 0, `INIT` 1, `READ` 2, `INVAL` 3. -/
inductive Op where
  | none
  | init
  | read
  | inval
  deriving DecidableEq, Repr, Inhabited

/-- A labelled step with a polled primitive: `s1` to `s7` are S1 to S7 of 42_read_byte.md, of which `s1` to `s4` are also
V1 to V4 of 43_invalidate.md, and `vf` is VF, the fill loop. -/
inductive Stage where
  | s1
  | s2
  | s3
  | s4
  | s5
  | s6
  | s7
  | vf
  deriving DecidableEq, Repr, Inhabited

/-- Where a `goto` can lead that issues a primitive: a stage, or the cleanup label. -/
inductive Target where
  | stage (l : Stage)
  | cleanup
  deriving DecidableEq, Repr, Inhabited

/-- Which of the engine's steps is next (41_primitives.md R103).  `phase` alone does not tell: a phase stays active until
the next primitive is issued (10_state.md R21). -/
inductive Seq where
  /-- accept a command, or wait for one -/
  | ready
  /-- issue the primitive of a label -/
  | issue (t : Target)
  /-- sample `CTL_DONE` for the primitive of a stage -/
  | poll (l : Stage)
  /-- respond to the host -/
  | respond
  deriving DecidableEq, Repr, Inhabited

/-- One item of a bus trace (00_scope.md R7): `S`, `Sr`, `W(xx)`, `R`, `P`. -/
inductive BusEvent where
  | start
  | restart
  | write (b : Byte)
  | read
  | stop
  deriving DecidableEq, Repr, Inhabited

/-- An error as the model's trace records it (60_exceptions.md R150): the class, the argument of `raise`, and the phase it
arose in. -/
structure Raised where
  error : ErrorClass
  info  : ErrorInfo
  phase : Phase
  deriving DecidableEq, Repr, Inhabited

/-- Bytes of the attached device by offset (20_memory.md R40): addresses strictly rising, no entry equal to what an
unlisted offset reads as. -/
abbrev Memory := List Host.Cell

/-- Why a step faults.  The spec gives the block no fault (60_exceptions.md R159). -/
inductive Fault where
  /-- Raised by a sample when the running operation has no such step (S5 to S7 under `INVALIDATE`, VF under `READ_BYTE`,
  any under neither): a state that no run reaches.  Safe: the model stops where the spec gives no rule. -/
  | stageOutsideOperation
  deriving DecidableEq, Repr, Inhabited

/-- Why a step is refused. -/
inductive Refusal where
  /-- Raised by an arm of `exec` whose instruction has no meaning yet (there is none).  Safe. -/
  | notModelled (mnemonic : String)
  /-- Raised when the reserved command code `0b00` is accepted: "A model refuses it" (30_encoding.md R64).  Safe. -/
  | reservedCommand
  /-- Raised by `READ_BYTE` and `INVALIDATE` while `CTL_EN = 0`: "A model refuses the run" (70_reset_and_hazards.md R186).
  Safe. -/
  | operationBeforeInit
  /-- Raised when `rst` is asserted during an operation, `READ_BYTE` or `INVALIDATE`: "a model refuses such a run"
  (70_reset_and_hazards.md R182; log 8).  Safe. -/
  | resetDuringOperation
  deriving DecidableEq, Repr, Inhabited

structure State where
  /-- the build-time parameters; no step writes them (00_scope.md R6) -/
  cfg        : Params
  /-- R11 -/
  op         : Op
  /-- R12 -/
  off        : Offset
  /-- R13 -/
  result     : Byte
  /-- R14, in `0 .. RETRY_MAX` -/
  retryCnt   : Nat
  /-- R15, in `0 .. POLL_MAX` -/
  pollCnt    : Nat
  /-- R16, in `0 .. FILL_SIZE` -/
  fillCnt    : Nat
  /-- R20 -/
  phase      : Phase
  /-- the model's own: which engine step is next -/
  seq        : Seq
  /-- R25 -/
  captured   : Bool
  /-- R26 -/
  started    : Bool
  /-- R28; its width is open, so a number -/
  ctlDiv     : Nat
  /-- R29 -/
  ctlEn      : Bool
  /-- R30: the kind code last written -/
  ctlPrim    : BitVec 2
  /-- R30: the write strobe, true in the step that writes `CTL_PRIM` -/
  ctlStrobe  : Bool
  /-- R31 -/
  ctlData    : Byte
  /-- R32 -/
  ctlDone    : Bool
  /-- R33 -/
  ctlStatus  : Byte
  /-- R34 -/
  lastStatus : Byte
  /-- the reset input (R180) -/
  rst        : Bool
  /-- R35: the commands the host will still present, in order; `cmd_valid` and `cmd_word` are its head -/
  program    : List CmdWord
  /-- R35 -/
  rspValid   : Bool
  /-- R35 -/
  rspData    : Byte
  /-- R35 -/
  diagValid  : Bool
  /-- R35 -/
  diagChar   : Byte
  /-- the environment's hidden state (R36) -/
  hidden     : Hidden
  /-- the attached device's memory (20_memory.md R40) -/
  mem        : Memory
  /-- the environment's moves already settled, the next first; past its end they are free -/
  script     : List EnvMove
  /-- the model's own: the bus controller wrote `CTL_DATA` last, so its value outlives no sample
  (70_reset_and_hazards.md R190) -/
  received   : Bool
  /-- the model's own: how many free values have been drawn -/
  draws      : Nat
  /-- the model's own: every character the diagnostic sink has taken, oldest first (60_exceptions.md R171) -/
  sink       : List Byte
  /-- the model's own: the bus trace of the running or last operation, oldest first (00_scope.md R7) -/
  trace      : List BusEvent
  /-- the model's own: the errors of the running or last operation, oldest first (60_exceptions.md R150) -/
  errors     : List Raised
  deriving DecidableEq, Repr

/-- The machine right after reset (70_reset_and_hazards.md R181).  `phase`, `op`, `captured`, `started`, `CTL_EN`,
`CTL_DONE`, `rsp_valid` and `diag_valid` are the spec's; every other value is a DESIGN CHOICE (assumption log 7). -/
def State.reset : State where
  cfg        := Config.build
  op         := .none
  off        := 0
  result     := 0
  retryCnt   := 0
  pollCnt    := 0
  fillCnt    := 0
  phase      := .idle
  seq        := .ready
  captured   := false
  started    := false
  ctlDiv     := 0
  ctlEn      := false
  ctlPrim    := 0
  ctlStrobe  := false
  ctlData    := 0
  ctlDone    := false
  ctlStatus  := 0
  lastStatus := 0
  rst        := false
  program    := []
  rspValid   := false
  rspData    := 0
  diagValid  := false
  diagChar   := 0
  hidden     := { bus := .free, requests := [], busy := 0, ptr := 0, wbuf := [], writeTime := 0, writeProtected := false }
  mem        := []
  script     := []
  received   := false
  draws      := 0
  sink       := []
  trace      := []
  errors     := []

end Sys2Proof.Machine
end

