-- ==== Sys2Proof/Machine/Operands.lean ====
section
/-! DEFINITION. Constants of the protocol, and every operand form: how the bytes of a bus frame and the primitive word of
each step are assembled from `off` and the parameters (30_encoding.md R65 to R70). -/

namespace Sys2Proof.Machine

/-- `FILL_SIZE` of this hardware (00_scope.md R6). -/
def fillSize : Nat := 8

/-- `FILL_BYTE` (00_scope.md R6). -/
def fillByte : Byte := 0xFF

/-- `FAIL_SENTINEL` (00_scope.md R6). -/
def failSentinel : Byte := 0xFF

/-- `NEWLINE`.  PRESUMED by the spec from general knowledge (40_init.md R83, assumption log 13). -/
def newline : Byte := 0x0A

/-- The code of a phase (10_state.md R20). -/
def phaseCode : Phase → BitVec 4
  | .idle => 0
  | .startPending => 1
  | .deviceSelected => 2
  | .addressHighSent => 3
  | .addressLowSent => 4
  | .repeatedStartPending => 5
  | .readSelected => 6
  | .byteReceived => 7
  | .writeAckReceived => 8
  | .stopped => 9

/-- The number of `op` (10_state.md R11), which is the command code that started it (30_encoding.md R61). -/
def opCode : Op → BitVec 2
  | .none => 0
  | .init => 1
  | .read => 2
  | .inval => 3

/-- The number of an error class (60_exceptions.md R150). -/
def errorNumber : ErrorClass → Nat
  | .startTimeout => 1
  | .notReady => 2
  | .retryExhausted => 3
  | .arbLost => 4
  | .rejected => 5
  | .protocol => 6
  | .phaseTimeout => 7

/-- `ADDR_MODE`. -/
def addrMode : AddrCfg → AddrMode
  | .addr16 _ => .addr16
  | .addr8f _ => .addr8f

/-- `DEV_CLASS_ADDR` (30_encoding.md R66). -/
def devClassAddr : AddrCfg → Byte
  | .addr16 cls => cls ++ 0#1
  | .addr8f cls => cls ++ 0#4

/-- The folded offset bits of a select byte (30_encoding.md R66). -/
def fold (a : AddrCfg) (off : Offset) : Byte :=
  match a with
  | .addr16 _ => 0
  | .addr8f _ => 0#4 ++ (off.extractLsb' 8 3 ++ 0#1)

/-- The write-direction select byte (30_encoding.md R66). -/
def selW (a : AddrCfg) (off : Offset) : Byte := devClassAddr a ||| fold a off

/-- The read-direction select byte (30_encoding.md R66). -/
def selR (a : AddrCfg) (off : Offset) : Byte := devClassAddr a ||| fold a off ||| 1

/-- The high address byte (30_encoding.md R67). -/
def addrHi (off : Offset) : Byte := off.extractLsb' 8 8

/-- The low, or only, address byte (30_encoding.md R68). -/
def addrLo (off : Offset) : Byte := off.extractLsb' 0 8

/-- How many address bytes follow the write select (30_encoding.md R73). -/
def addrBytes : AddrCfg → Nat
  | .addr16 _ => 2
  | .addr8f _ => 1

/-- The offset a device reads from the offset register: 11 bits in `ADDR8F` (20_memory.md R40). -/
def deviceOffset (a : AddrCfg) (off : Offset) : Nat :=
  match a with
  | .addr16 _ => off.toNat
  | .addr8f _ => (off.extractLsb' 0 11).toNat

/-- The primitive word of the step that is about to issue (10_state.md R21, column "primitive outstanding"). -/
def primWord (a : AddrCfg) (off : Offset) : Target → PrimWord
  | .stage .s1 => primWordOf 0#2 0#8
  | .stage .s2 => primWordOf 1#2 (selW a off)
  | .stage .s3 => primWordOf 1#2 (addrHi off)
  | .stage .s4 => primWordOf 1#2 (addrLo off)
  | .stage .s5 => primWordOf 0#2 0#8
  | .stage .s6 => primWordOf 1#2 (selR a off)
  | .stage .s7 => primWordOf 2#2 0#8
  | .stage .vf => primWordOf 1#2 fillByte
  | .cleanup => primWordOf 3#2 0#8

/-- The phase a label drives toward (10_state.md R21). -/
def phaseOf : Target → Phase
  | .stage .s1 => .startPending
  | .stage .s2 => .deviceSelected
  | .stage .s3 => .addressHighSent
  | .stage .s4 => .addressLowSent
  | .stage .s5 => .repeatedStartPending
  | .stage .s6 => .readSelected
  | .stage .s7 => .byteReceived
  | .stage .vf => .writeAckReceived
  | .cleanup => .stopped

/-- What follows the issue of a label's primitive: its poll loop, or, for the unpolled `STOP`, the response
(41_primitives.md R95). -/
def afterIssue : Target → Seq
  | .stage l => .poll l
  | .cleanup => .respond

end Sys2Proof.Machine
end

