-- ==== Sys2Proof/Machine/Flags.lean ====
section
/-! DEFINITION. The computed flags of the block: the status class (10_state.md R27), the default `Classify` table
(30_encoding.md R71), the phase kinds, and the host port's computed signals (10_state.md R35). -/

namespace Sys2Proof.Machine

/-- The six results of `Phase(k, p)` (41_primitives.md R99). -/
inductive PhaseResult where
  | timeout
  | done (c : StatusClass)
  deriving DecidableEq, Repr, Inhabited

/-- The phase kind of a step (10_state.md R21). -/
def kindOf : Stage → PhaseKind
  | .s1 => .startK
  | .s2 => .selWK
  | .s3 => .addrK
  | .s4 => .addrK
  | .s5 => .startK
  | .s6 => .selRK
  | .s7 => .recvK
  | .vf => .fillK

/-- `Classify(k, s)` by a table: the first row that fits, else `Unexpected` (41_primitives.md R100). -/
def classify : List ClassRow → PhaseKind → Byte → StatusClass
  | [], _, _ => .unexpected
  | row :: rows, k, s =>
    if row.kind = k ∧ s &&& row.mask = row.pattern then row.cls else classify rows k s

/-- `DiagCode(E, P)` by a table, which may read `LAST_STATUS`: the first row that fits, else no character
(60_exceptions.md R172). -/
def diagCode : List DiagRow → ErrorClass → ErrorInfo → Phase → Byte → Option Byte
  | [], _, _, _, _ => none
  | row :: rows, e, i, p, s =>
    if row.error = e ∧ row.info = i ∧ row.phase = p ∧ s &&& row.mask = row.pattern then some row.char
    else diagCode rows e i p s

/-- The default instance of `Classify`, which looks at `s[7:3]` only (30_encoding.md R71).  Its values are the spec's own,
from general knowledge (G2); the parameter stays open. -/
def defaultClassRows : List ClassRow := [
  ⟨.startK, 0xF8, 0x08, .success⟩, ⟨.startK, 0xF8, 0x10, .success⟩, ⟨.startK, 0xF8, 0x38, .arbLost⟩,
  ⟨.selWK, 0xF8, 0x18, .success⟩, ⟨.selWK, 0xF8, 0x20, .notReady⟩, ⟨.selWK, 0xF8, 0x38, .arbLost⟩,
  ⟨.addrK, 0xF8, 0x28, .success⟩, ⟨.addrK, 0xF8, 0x30, .rejected⟩, ⟨.addrK, 0xF8, 0x38, .arbLost⟩,
  ⟨.fillK, 0xF8, 0x28, .success⟩, ⟨.fillK, 0xF8, 0x30, .rejected⟩, ⟨.fillK, 0xF8, 0x38, .arbLost⟩,
  ⟨.selRK, 0xF8, 0x40, .success⟩, ⟨.selRK, 0xF8, 0x48, .notReady⟩, ⟨.selRK, 0xF8, 0x38, .arbLost⟩,
  ⟨.recvK, 0xF8, 0x50, .success⟩, ⟨.recvK, 0xF8, 0x58, .success⟩, ⟨.recvK, 0xF8, 0x38, .arbLost⟩]

/-- `cmd_ready`: 1 exactly when `phase = Idle` and `op = NONE` (10_state.md R35). -/
def cmdReady (s : State) : Bool := s.phase == .idle && s.op == .none

/-- `cmd_valid`: the host presents a command (10_state.md R35). -/
def cmdValid (s : State) : Bool := !s.program.isEmpty

/-- `cmd_word`: the command presented (10_state.md R35).  That it is 0 while none is presented is the model's choice
(assumption log 14); no step reads it then. -/
def cmdWord (s : State) : CmdWord := s.program.headD 0

end Sys2Proof.Machine
end

