-- ==== Sys2Proof/Machine/Ops.lean ====
section
/-! DEFINITION. The shared operations: the device's memory, `Emit`, `Diag`, `raise`, `goto`, `Issue`, `Respond`, and what
lasts no longer than its step.

Raising an error (60_exceptions.md R150, R172) is one operation, `raiseTo`, with the transfer of control the step rule
writes beside it: to a label, which is both the entry into cleanup (R160) and the return to step 1 of a recoverable error
(R164), or to the exit without stop (R161). -/

namespace Sys2Proof.Machine

/-! ### The device's memory (20_memory.md R40) -/

/-- What an offset reads as that nothing has written.  DESIGN CHOICE: the spec gives no contents (assumption log 9). -/
def Memory.unlisted : Byte := 0xFF

/-- The byte at an offset. -/
def Memory.read : Memory → Nat → Byte
  | [], _ => Memory.unlisted
  | (a, b) :: m, x => if a = x then b else Memory.read m x

/-- The memory with no entry at an offset. -/
def Memory.erase : Memory → Nat → Memory
  | [], _ => []
  | (a, b) :: m, x => if a = x then m else (a, b) :: Memory.erase m x

/-- The memory with an entry put in its place. -/
def Memory.insert : Memory → Nat → Byte → Memory
  | [], x, v => [(x, v)]
  | (a, b) :: m, x, v =>
    if x < a then (x, v) :: (a, b) :: m
    else if x = a then (x, v) :: m
    else (a, b) :: Memory.insert m x v

/-- One byte written at an offset; the canonical form is kept. -/
def Memory.write (m : Memory) (x : Offset) (v : Byte) : Memory :=
  if v = Memory.unlisted then Memory.erase m x.toNat else Memory.insert m x.toNat v

/-- Bytes written one after another. -/
def Memory.writes (m : Memory) (ws : List (Offset × Byte)) : Memory :=
  ws.foldl (fun m w => Memory.write m w.1 w.2) m

/-- The entries of a memory lie at rising addresses from `lo` on, inside the 16-bit offset space, and differ from what an
unlisted offset reads as. -/
def Memory.wfFrom : Nat → Memory → Bool
  | _, [] => true
  | lo, (a, b) :: m => decide (lo ≤ a) && decide (a < 65536) && !(b == Memory.unlisted) && Memory.wfFrom (a + 1) m

/-- The canonical form. -/
def Memory.wf (m : Memory) : Bool := Memory.wfFrom 0 m

/-! ### Characters and errors -/

/-- `Emit(ch)` (60_exceptions.md R171). -/
def emit (ch : Byte) (s : State) : State :=
  { s with diagValid := true, diagChar := ch, sink := s.sink ++ [ch] }

/-- The character `Diag` emits for an error in the current phase, if any (00_scope.md R7, 60_exceptions.md R172). -/
def diagOf (e : ErrorClass) (i : ErrorInfo) (s : State) : Option Byte :=
  if s.cfg.diagEnable then diagCode s.cfg.diagRows e i s.phase s.lastStatus else none

/-- `Diag(E, P)` in the current phase (60_exceptions.md R172). -/
def diag (e : ErrorClass) (i : ErrorInfo) (s : State) : State :=
  match diagOf e i s with
  | some ch => emit ch s
  | none => s

/-- `raise E(info)`, without its transfer of control: the trace records the error, and `Diag` is performed
(60_exceptions.md R150). -/
def raise (e : ErrorClass) (i : ErrorInfo) (s : State) : State :=
  diag e i { s with errors := s.errors ++ [⟨e, i, s.phase⟩] }

/-- `goto`, by the engine step that comes next. -/
def goto (q : Seq) (s : State) : State := { s with seq := q }

/-- `raise E(info); goto L`: taking an error. -/
def raiseTo (e : ErrorClass) (i : ErrorInfo) (q : Seq) (s : State) : State := goto q (raise e i s)

/-- `goto` a stage. -/
abbrev toStage (l : Stage) : Seq := .issue (.stage l)

/-- `goto CLEANUP` (60_exceptions.md R160). -/
abbrev toCleanup : Seq := .issue .cleanup

/-- `goto EXIT_NOSTOP` (60_exceptions.md R161). -/
abbrev toExitNoStop : Seq := .respond

/-- Arbitration lost: back to step 1, no retry counted, no stop issued (60_exceptions.md R153). -/
def restart (s : State) : State := raiseTo .arbLost .plain (toStage .s1) s

/-- A status the phase does not anticipate: cleanup (60_exceptions.md R155). -/
def protocolError (s : State) : State := raiseTo .protocol .plain toCleanup s

/-- A timeout of a phase other than `StartPending`: cleanup (60_exceptions.md R156). -/
def phaseTimeout (s : State) : State := raiseTo .phaseTimeout .plain toCleanup s

/-! ### Primitives, the response, the pulses -/

/-- The bus-trace item of a primitive (00_scope.md R7). -/
def busEvent (w : PrimWord) (p : Phase) : BusEvent :=
  match decodePrim w with
  | .start => if p = .repeatedStartPending then .restart else .start
  | .tx b => .write b
  | .rxNack => .read
  | _ => .stop

/-- `Issue(p)` (41_primitives.md R91): (a) for `TX` the byte goes to `CTL_DATA`; (b) the kind code goes to `CTL_PRIM`, with
its strobe; (c) `CTL_DONE` is cleared; (d) for a polled primitive `poll_cnt` is cleared.  The bus controller has the
primitive to perform, and the trace records it. -/
def issue (w : PrimWord) (s : State) : State :=
  { s with
    ctlData := if PrimWord.kind w = 1#2 then PrimWord.data w else s.ctlData
    received := if PrimWord.kind w = 1#2 then false else s.received
    ctlPrim := PrimWord.kind w
    ctlStrobe := true
    ctlDone := false
    pollCnt := if PrimWord.kind w = 3#2 then s.pollCnt else 0
    hidden := { s.hidden with requests := s.hidden.requests ++ [w] }
    trace := s.trace ++ [busEvent w s.phase] }

/-- `Respond(v)` or `Respond()`, then `op <- NONE; phase <- Idle` (30_encoding.md R63, 42_read_byte.md R119).  Where the
response has no value, `rsp_data` is a free value (93_implementation_defined.md U3). -/
def respond (s : State) : State :=
  { s with
    rspValid := true
    rspData := if s.op = .read then s.result else Config.freeByte s.draws
    draws := if s.op = .read then s.draws else s.draws + 1
    op := .none
    phase := .idle
    seq := .ready }

/-- The values the bus controller guarantees only momentarily become any value: `CTL_STATUS`, and `CTL_DATA` after a receive
(10_state.md R33, 70_reset_and_hazards.md R190, 93_implementation_defined.md U1). -/
def forget (s : State) : State :=
  { s with
    ctlStatus := Config.freeByte s.draws
    ctlData := if s.received then Config.freeByte (s.draws + 1) else s.ctlData
    draws := s.draws + 2 }

/-- What happens between the engine step before and this one: the one-step pulses `rsp_valid`, `diag_valid` and the
`CTL_PRIM` strobe end (10_state.md R30, R35), and what the spec guarantees only with a pulse or at a sample becomes any
value.  `rsp_data` without `rsp_valid` and `diag_char` without `diag_valid` are free values (assumption log 24). -/
def beginStep (s : State) : State :=
  { forget s with
    rspValid := false
    rspData := Config.freeByte (s.draws + 2)
    diagValid := false
    diagChar := Config.freeByte (s.draws + 3)
    ctlStrobe := false
    draws := s.draws + 4 }

end Sys2Proof.Machine
end

