-- ==== Sys2Proof/Machine/Device.lean ====
section
/-! DEFINITION. The environment's side: its move before a sample of `CTL_DONE` (41_primitives.md R101), and one chosen device
oracle.

The engine's rules hold for every environment (`EnvMove.oracle`, and the free moves past the script's end).  The chosen
oracle is "a device that acknowledges the select and address bytes and then sends the byte stored at the offset it was
sent" (20_memory.md R41), and stores successive data bytes at successive offsets (R42, G8); it answers with the status
values of the default table (G2).  It is no rule of the engine; a claim about it names it. -/

namespace Sys2Proof.Machine

/-- What the bus controller and the device make of the primitives handed to them. -/
structure Reply where
  hidden : Hidden
  mem    : Memory
  done   : Bool
  status : Byte
  data   : Byte
  deriving DecidableEq, Repr, Inhabited

/-- A select byte addresses this device (30_encoding.md R66). -/
def selects (a : AddrCfg) (b : Byte) : Bool :=
  match a with
  | .addr16 cls => b.extractLsb' 1 7 == cls
  | .addr8f cls => b.extractLsb' 4 4 == cls

/-- The device latches an address byte, the `n`-th since its select byte; the folded bits of `ADDR8F` came with the select
byte (20_memory.md R43).  That the pointer takes each part as it arrives, so that an operation cut short between them leaves
it half changed, is the model's choice (R47 says only that a failed read may have moved it; assumption log 10). -/
def latchAddress (a : AddrCfg) (n : Nat) (b : Byte) (ptr : Offset) : Offset :=
  match a with
  | .addr16 _ => if n = 0 then b ++ ptr.extractLsb' 0 8 else ptr.extractLsb' 8 8 ++ b
  | .addr8f _ => ptr.extractLsb' 8 8 ++ b

/-- The device takes the folded offset bits of a select byte (30_encoding.md R66). -/
def latchFold (a : AddrCfg) (b : Byte) (ptr : Offset) : Offset :=
  match a with
  | .addr16 _ => ptr
  | .addr8f _ => 0#5 ++ (b.extractLsb' 1 3 ++ ptr.extractLsb' 0 8)

/-- A select byte on the bus: a device that is not busy acknowledges it; a busy one refuses it once more
(60_exceptions.md R152).  The model's choices (91_not_in_source.md N10, assumption log 10): the folded bits of `ADDR8F` are
taken from a write select alone; busy time counts down at a refused select of either direction; and after a refused select a
select byte stays due, so that a further `TX` is taken as another one. -/
def serveSelect (a : AddrCfg) (b : Byte) (r : Reply) : Reply :=
  if selects a b && r.hidden.busy == 0 then
    if b.getLsbD 0 then { r with hidden := { r.hidden with bus := .reading }, status := 0x40 }
    else
      { r with hidden := { r.hidden with bus := .writing 0, ptr := latchFold a b r.hidden.ptr }, status := 0x18 }
  else
    { r with
      hidden := { r.hidden with busy := if selects a b then r.hidden.busy - 1 else r.hidden.busy }
      status := if b.getLsbD 0 then 0x48 else 0x20 }

/-- A byte on the bus after a write select: an address byte, or a data byte to store at the pointer, which then moves on by
one (20_memory.md R42); a write-protected device refuses the data byte (R49).  The model's choices (assumption log 10):
a byte is stored at once, and a device that refused one stays selected for writing and refuses the next as well. -/
def serveByte (a : AddrCfg) (n : Nat) (b : Byte) (r : Reply) : Reply :=
  if n < addrBytes a then
    { r with
      hidden := { r.hidden with bus := .writing (n + 1), ptr := latchAddress a n b r.hidden.ptr }
      status := 0x28 }
  else if r.hidden.writeProtected then { r with status := 0x30 }
  else
    { r with
      hidden := { r.hidden with bus := .writing (n + 1), ptr := r.hidden.ptr + 1, wbuf := r.hidden.wbuf ++ [b] }
      mem := Memory.write r.mem (BitVec.ofNat 16 (deviceOffset a r.hidden.ptr)) b
      status := 0x28 }

/-- `START`: a start condition, or a repeated one while the bus is held (41_primitives.md R92).  That it drops the device's
write buffer is the model's choice (assumption log 10). -/
def serveStart (r : Reply) : Reply :=
  { r with
    hidden := { r.hidden with bus := .started, wbuf := [] }
    status := if r.hidden.bus = .free then 0x08 else 0x10 }

/-- `TX(b)` (41_primitives.md R93).  The answer where no byte is due is the model's choice (assumption log 10). -/
def serveTx (a : AddrCfg) (b : Byte) (r : Reply) : Reply :=
  match r.hidden.bus with
  | .started => serveSelect a b r
  | .writing n => serveByte a n b r
  | .free => { r with status := 0x00 }
  | .reading => { r with status := 0x00 }

/-- `RX_NACK`: the byte stored at the device's pointer (41_primitives.md R94).  That the pointer then moves on by one is the
model's choice for this device: the spec says only that a read may have moved it (20_memory.md R47, 91_not_in_source.md N10;
assumption log 10).  So is that the device stays selected for reading after the NACK, and would send its next byte to a further
`RX_NACK`; the NACK tells it to send no more (R94), and no run of the engine asks for more. -/
def serveRx (a : AddrCfg) (r : Reply) : Reply :=
  match r.hidden.bus with
  | .reading =>
    { r with
      hidden := { r.hidden with ptr := r.hidden.ptr + 1 }
      status := 0x58
      data := Memory.read r.mem (deviceOffset a r.hidden.ptr) }
  | .free => { r with status := 0x00 }
  | .started => { r with status := 0x00 }
  | .writing _ => { r with status := 0x00 }

/-- `STOP`: the bus is released, and a device that was written to becomes busy (20_memory.md R52).  Its status is never
read; that it is 0xF8 is the model's choice (assumption log 10). -/
def serveStop (r : Reply) : Reply :=
  { r with
    hidden := { r.hidden with
      bus := .free
      wbuf := []
      busy := if r.hidden.wbuf = [] then r.hidden.busy else r.hidden.writeTime }
    status := 0xF8 }

/-- One primitive performed by the chosen bus controller and device. -/
def servePrim (a : AddrCfg) (w : PrimWord) (r : Reply) : Reply :=
  match decodePrim w with
  | .start => serveStart { r with done := true }
  | .tx b => serveTx a b { r with done := true }
  | .rxNack => serveRx a { r with done := true }
  | _ => serveStop { r with done := true }

/-- All primitives not yet performed are performed, oldest first; the last one's status is the answer, and its byte is that
of the last reception that was due, or 0 where none was: the model's choice (assumption log 10). -/
def serve (a : AddrCfg) (h : Hidden) (m : Memory) : Reply :=
  h.requests.foldl (fun r w => servePrim a w r)
    { hidden := { h with requests := [] }, mem := m, done := false, status := 0, data := 0 }

/-- The environment's next move: the script's, or a free one. -/
def nextMove (s : State) : EnvMove := s.script.headD (Config.freeMove s.draws)

/-- The next move is taken off the script, or counted as drawn. -/
def takeMove (s : State) : State :=
  { s with script := s.script.tail, draws := if s.script = [] then s.draws + 1 else s.draws }

/-- A move takes effect: `CTL_DONE` stays set once set, `CTL_STATUS` is whatever the controller reports at this sample, and
`CTL_DATA` is written when an `RX_NACK` completes (10_state.md R31 to R33).  That the byte of an `RX_NACK` that completes late, with another primitive
issued since (R36 c), does not reach `CTL_DATA` is the model's choice (assumption log 6). -/
def applyMove (m : EnvMove) (s : State) : State :=
  match m with
  | .oracle done status data hidden writes =>
    { s with
      ctlDone := s.ctlDone || done
      ctlStatus := status
      ctlData := if done && s.ctlPrim == 2#2 then data else s.ctlData
      received := s.received || (done && s.ctlPrim == 2#2)
      hidden := hidden
      mem := Memory.writes s.mem writes }
  | .device =>
    { s with
      ctlDone := s.ctlDone || (serve s.cfg.addr s.hidden s.mem).done
      ctlStatus := (serve s.cfg.addr s.hidden s.mem).status
      ctlData := if (serve s.cfg.addr s.hidden s.mem).done && s.ctlPrim == 2#2 then (serve s.cfg.addr s.hidden s.mem).data
        else s.ctlData
      received := s.received || ((serve s.cfg.addr s.hidden s.mem).done && s.ctlPrim == 2#2)
      hidden := (serve s.cfg.addr s.hidden s.mem).hidden
      mem := (serve s.cfg.addr s.hidden s.mem).mem }

/-- The environment moves once. -/
def envStep (s : State) : State := applyMove (nextMove s) (takeMove s)

end Sys2Proof.Machine
end

