-- ==== Sys2Proof/Machine/Init.lean ====
section
/-! DEFINITION. The command `INIT` (40_init.md). -/

namespace Sys2Proof.Machine

/-- The divider `INIT` selects; the comparison is strict (40_init.md R81). -/
def dividerOf (p : Params) : Nat :=
  if p.fSys.val < p.fThreshold.val then p.divLow else Config.divFor100k p.fSys.val

/-- `INIT` (40_init.md R80): the divider, the enable, the liveness newline; its response is the next engine step. -/
def execInit (s : State) : Host.Outcome State Fault Refusal :=
  .next (goto .respond (emit newline
    { s with op := .init, trace := [], errors := [], ctlDiv := dividerOf s.cfg, ctlEn := true }))

end Sys2Proof.Machine
end

