-- ==== Sys2Proof/Machine/ReadByte.lean ====
section
/-! DEFINITION. The command `READ_BYTE` (42_read_byte.md): its entry, and the six-way branch of each of its steps.

Steps 1 and 2 are written once (`startBranch`, `selectBranch`), since V1 and V2 of `INVALIDATE` are identical to them
(43_invalidate.md R132, R133). -/

namespace Sys2Proof.Machine

/-- `READ_BYTE off`, at acceptance (42_read_byte.md R110).  Without `INIT` the run is refused
(70_reset_and_hazards.md R186). -/
def execReadByte (off : Offset) (s : State) : Host.Outcome State Fault Refusal :=
  if s.ctlEn then
    .next (goto (toStage .s1)
      { s with
        op := .read
        off := off
        result := failSentinel
        captured := false
        started := false
        retryCnt := 0
        trace := []
        errors := [] })
  else .refused .operationBeforeInit

/-- The branch of step 1 (42_read_byte.md R111, 43_invalidate.md R132). -/
def startBranch (r : PhaseResult) (s : State) : State :=
  match r with
  | .done .success => goto (toStage .s2) { s with started := true }
  | .done .arbLost => restart s
  | .timeout => raiseTo .startTimeout .plain (if s.started then toCleanup else toExitNoStop) s
  | .done .notReady => protocolError s
  | .done .rejected => protocolError s
  | .done .unexpected => protocolError s

/-- `retry_cnt <- retry_cnt + 1`. -/
def countRetry (s : State) : State := { s with retryCnt := s.retryCnt + 1 }

/-- A NACK of the write select: the retry is counted, then made while the count is below the ceiling
(42_read_byte.md R112, 60_exceptions.md R152). -/
def busyRetry (s : State) : State :=
  if s.retryCnt + 1 < s.cfg.retryMax.val then goto (toStage .s1) (countRetry (raise .notReady .plain s))
  else raiseTo .retryExhausted .plain toCleanup (countRetry (raise .notReady .plain s))

/-- The branch of step 2 (42_read_byte.md R112, 43_invalidate.md R133). -/
def selectBranch (r : PhaseResult) (s : State) : State :=
  match r with
  | .done .success =>
    match addrMode s.cfg.addr with
    | .addr16 => goto (toStage .s3) s
    | .addr8f => goto (toStage .s4) s
  | .done .notReady => busyRetry s
  | .done .arbLost => restart s
  | .timeout => phaseTimeout s
  | .done .rejected => protocolError s
  | .done .unexpected => protocolError s

/-- The branch of a phase that sends an address or fill byte, with the argument its `E_REJECTED` carries and what its
success does (42_read_byte.md R113, 43_invalidate.md R137). -/
def addressBranch (info : ErrorInfo) (success : State → State) (r : PhaseResult) (s : State) : State :=
  match r with
  | .done .success => success s
  | .done .rejected => raiseTo .rejected info toCleanup s
  | .done .arbLost => restart s
  | .timeout => phaseTimeout s
  | .done .notReady => protocolError s
  | .done .unexpected => protocolError s

/-- S1 (R111). -/
def readS1 (r : PhaseResult) (s : State) : State := startBranch r s

/-- S2 (R112). -/
def readS2 (r : PhaseResult) (s : State) : State := selectBranch r s

/-- S3 (R113). -/
def readS3 (r : PhaseResult) (s : State) : State := addressBranch .benign (goto (toStage .s4)) r s

/-- S4 (R114). -/
def readS4 (r : PhaseResult) (s : State) : State := addressBranch .benign (goto (toStage .s5)) r s

/-- S5 (R115): arbitration loss goes back to S1, not S5. -/
def readS5 (r : PhaseResult) (s : State) : State :=
  match r with
  | .done .success => goto (toStage .s6) s
  | .done .arbLost => restart s
  | .timeout => phaseTimeout s
  | .done .notReady => protocolError s
  | .done .rejected => protocolError s
  | .done .unexpected => protocolError s

/-- S6 (R116): a NACK is terminal. -/
def readS6 (r : PhaseResult) (s : State) : State :=
  match r with
  | .done .success => goto (toStage .s7) s
  | .done .notReady => raiseTo .notReady .terminal toCleanup s
  | .done .arbLost => restart s
  | .timeout => phaseTimeout s
  | .done .rejected => protocolError s
  | .done .unexpected => protocolError s

/-- Capture of the received byte, read from `CTL_DATA` in the step that reads the status (R118). -/
def capture (d : Byte) (s : State) : State := { s with result := d, captured := true }

/-- S7 (R117), with the byte `CTL_DATA` holds at the sample: arbitration loss is not anticipated here. -/
def readS7 (r : PhaseResult) (d : Byte) (s : State) : State :=
  match r with
  | .done .success => goto toCleanup (capture d s)
  | .timeout => phaseTimeout s
  | .done .arbLost => protocolError s
  | .done .notReady => protocolError s
  | .done .rejected => protocolError s
  | .done .unexpected => protocolError s

/-- The branch of each step of `READ_BYTE` (R120), with the byte `CTL_DATA` holds at the sample; VF is none of them. -/
def readBranch (l : Stage) (r : PhaseResult) (d : Byte) (s : State) : Option State :=
  match l with
  | .s1 => some (readS1 r s)
  | .s2 => some (readS2 r s)
  | .s3 => some (readS3 r s)
  | .s4 => some (readS4 r s)
  | .s5 => some (readS5 r s)
  | .s6 => some (readS6 r s)
  | .s7 => some (readS7 r d s)
  | .vf => none

end Sys2Proof.Machine
end

