-- ==== Sys2Proof/Machine/Invalidate.lean ====
section
/-! DEFINITION. The command `INVALIDATE` (43_invalidate.md): its entry, and the six-way branch of each of its steps. -/

namespace Sys2Proof.Machine

/-- `INVALIDATE`, at acceptance (43_invalidate.md R131).  Without `INIT` the run is refused
(70_reset_and_hazards.md R186). -/
def execInvalidate (s : State) : Host.Outcome State Fault Refusal :=
  if s.ctlEn then
    .next (goto (toStage .s1)
      { s with
        op := .inval
        off := 0
        started := false
        retryCnt := 0
        trace := []
        errors := [] })
  else .refused .operationBeforeInit

/-- V1 (R132). -/
def invalV1 (r : PhaseResult) (s : State) : State := startBranch r s

/-- V2 (R133). -/
def invalV2 (r : PhaseResult) (s : State) : State := selectBranch r s

/-- V3 (R134). -/
def invalV3 (r : PhaseResult) (s : State) : State := addressBranch .plain (goto (toStage .s4)) r s

/-- VF0, the entry to the fill loop (R136). -/
def enterFill (s : State) : State := goto (toStage .vf) { s with fillCnt := 0 }

/-- V4 (R135). -/
def invalV4 (r : PhaseResult) (s : State) : State := addressBranch .plain enterFill r s

/-- A fill byte acknowledged: counted, then the next one, or cleanup when all are sent (R137). -/
def fillNext (s : State) : State :=
  goto (if s.fillCnt + 1 < fillSize then toStage .vf else toCleanup) { s with fillCnt := s.fillCnt + 1 }

/-- VF (R137). -/
def invalVF (r : PhaseResult) (s : State) : State := addressBranch .terminal fillNext r s

/-- The branch of each step of `INVALIDATE` (R139); S5, S6 and S7 are none of them. -/
def invalBranch (l : Stage) (r : PhaseResult) (s : State) : Option State :=
  match l with
  | .s1 => some (invalV1 r s)
  | .s2 => some (invalV2 r s)
  | .s3 => some (invalV3 r s)
  | .s4 => some (invalV4 r s)
  | .vf => some (invalVF r s)
  | .s5 => none
  | .s6 => none
  | .s7 => none

end Sys2Proof.Machine
end

