-- ==== Sys2Proof/Machine/Primitives.lean ====
section
/-! DEFINITION. The four phase primitives (41_primitives.md).  Each is `Issue` of its word; the poll loop of the polled three
is the engine's own steps (R97, R103), and `STOP` has none (R95). -/

namespace Sys2Proof.Machine

/-- `START` (41_primitives.md R92). -/
def execStart (s : State) : Host.Outcome State Fault Refusal := .next (issue (primWordOf 0#2 0#8) s)

/-- `TX(b)` (41_primitives.md R93). -/
def execTx (b : Byte) (s : State) : Host.Outcome State Fault Refusal := .next (issue (primWordOf 1#2 b) s)

/-- `RX_NACK` (41_primitives.md R94). -/
def execRxNack (s : State) : Host.Outcome State Fault Refusal := .next (issue (primWordOf 2#2 0#8) s)

/-- `STOP` (41_primitives.md R95). -/
def execStop (s : State) : Host.Outcome State Fault Refusal := .next (issue (primWordOf 3#2 0#8) s)

end Sys2Proof.Machine
end

