-- ==== Sys2Proof/Machine/Dispatch.lean ====
section
/-! DEFINITION. The meaning of each instruction, by name: one arm per constructor of Instr. -/

namespace Sys2Proof.Machine

def exec (i : Instr) (s : State) : Host.Outcome State Fault Refusal :=
  match i with
  | .init => Sys2Proof.Machine.execInit s
  | .readByte off => Sys2Proof.Machine.execReadByte off s
  | .invalidate => Sys2Proof.Machine.execInvalidate s
  | .start => Sys2Proof.Machine.execStart s
  | .tx b => Sys2Proof.Machine.execTx b s
  | .rxNack => Sys2Proof.Machine.execRxNack s
  | .stop => Sys2Proof.Machine.execStop s

end Sys2Proof.Machine
end

