-- ==== Sys2Proof/Machine/Sequencer.lean ====
section
/-! DEFINITION. The engine's steps (41_primitives.md R103): accepting a command, issuing a primitive, one sample of
`CTL_DONE`, the response; and the reset input. -/

namespace Sys2Proof.Machine

/-- The reset state (70_reset_and_hazards.md R181) entered from a running machine: the block's own registers are reset; the
parameters, the environment, what the host will present and what the sink has taken are not the block's. -/
def resetBlock (s : State) : State :=
  { State.reset with
    cfg := s.cfg
    program := s.program
    hidden := s.hidden
    mem := s.mem
    script := s.script
    draws := s.draws
    sink := s.sink }

/-- An operation, `READ_BYTE` or `INVALIDATE`, runs from its acceptance to its response (00_scope.md R8); `phase` tells so
from its first issue on.  `INIT` is none. -/
def operating (s : State) : Bool := s.phase != .idle || s.op == .read || s.op == .inval

/-- `rst` asserted: the reset state, or a refusal while an operation runs (70_reset_and_hazards.md R180 to R182,
93_implementation_defined.md U7). -/
def resetStep (s : State) : Host.Outcome State Fault Refusal :=
  if operating s then .refused .resetDuringOperation else .next (resetBlock s)

/-- The command port (30_encoding.md R62): a command is accepted in a step with `cmd_valid = 1` and `cmd_ready = 1`;
otherwise the block waits. -/
def acceptStep (s : State) : Host.Outcome State Fault Refusal :=
  match s.program with
  | [] => .next s
  | w :: rest =>
    if cmdReady s then
      match decodeCmd w with
      | .ok i => exec i { s with program := rest }
      | .error _ => .refused .reservedCommand
    else .next s

/-- A primitive is issued, together with the change of `phase` (41_primitives.md R103): the word the sequencer assembles is
read and run. -/
def issueStep (t : Target) (s : State) : Host.Outcome State Fault Refusal :=
  exec (decodePrim (primWord s.cfg.addr s.off t)) { s with phase := phaseOf t, seq := afterIssue t }

/-- The branch of the step rule that the running operation has for a stage, if it has that stage; `d` is the byte `CTL_DATA`
holds at the sample. -/
def branchOf (l : Stage) (r : PhaseResult) (d : Byte) (s : State) : Option State :=
  match s.op with
  | .read => readBranch l r d s
  | .inval => invalBranch l r s
  | .init => none
  | .none => none

/-- The branch taken; an operation without the stage faults (no run reaches that). -/
def branch (l : Stage) (r : PhaseResult) (d : Byte) (s : State) : Host.Outcome State Fault Refusal :=
  match branchOf l r d s with
  | some t => .next t
  | none => .fault .stageOutsideOperation

/-- The one read of the status, into `LAST_STATUS` (41_primitives.md R98); the sample is then over. -/
def cached (s : State) : State := { forget s with lastStatus := s.ctlStatus }

/-- The sample counted (41_primitives.md R97); it is then over. -/
def counted (s : State) : State := { forget s with pollCnt := s.pollCnt + 1 }

/-- A sample that sees `CTL_DONE = 1`: the status is read and classified, and the branch taken (41_primitives.md R97 to
R99). -/
def completion (l : Stage) (s : State) : Host.Outcome State Fault Refusal :=
  branch l (.done (classify s.cfg.classRows (kindOf l) s.ctlStatus)) s.ctlData (cached s)

/-- A sample that sees `CTL_DONE = 0`: counted; `Timeout` when the count reaches `POLL_MAX` (41_primitives.md R97). -/
def emptySample (l : Stage) (s : State) : Host.Outcome State Fault Refusal :=
  if s.pollCnt + 1 = s.cfg.pollMax.val then branch l .timeout s.ctlData (counted s) else .next (counted s)

/-- What a sample makes of the state it looks at. -/
def sampled (l : Stage) (s : State) : Host.Outcome State Fault Refusal :=
  if s.ctlDone then completion l s else emptySample l s

/-- One sample of `CTL_DONE` in the poll loop, after the environment's move (41_primitives.md R97, R103). -/
def sampleStep (l : Stage) (s : State) : Host.Outcome State Fault Refusal := sampled l (envStep s)

/-- One engine step, after what the step before showed has ended (`beginStep`). -/
def engineStep (s : State) : Host.Outcome State Fault Refusal :=
  match s.seq with
  | .ready => acceptStep s
  | .issue t => issueStep t s
  | .poll l => sampleStep l s
  | .respond => .next (respond s)

/-- A command word placed where the next step accepts it: on the command port of a ready block, and for an operation the
boot order done, `CTL_EN = 1` (70_reset_and_hazards.md R184; assumption log 12). -/
def placeCommand (w : CmdWord) (s : State) : State :=
  { s with
    rst := false
    op := .none
    phase := .idle
    seq := .ready
    ctlEn := s.ctlEn || decide (2 ≤ (CmdWord.opc w).toNat)
    program := w :: s.program }

/-- A primitive placed where the next step issues it: the label of a running `READ_BYTE` that issues this kind; a `TX` is
the low address byte's, so its byte is the offset's low byte. -/
def placePrim (w : PrimWord) (s : State) : State :=
  { s with
    rst := false
    op := .read
    ctlEn := true
    off := match decodePrim w with
      | .tx b => s.off.extractLsb' 8 8 ++ b
      | _ => s.off
    seq := match decodePrim w with
      | .start => toStage .s1
      | .tx _ => toStage .s4
      | .rxNack => toStage .s7
      | _ => toCleanup }

end Sys2Proof.Machine
end

