-- ==== Sys2Proof/Machine/Step.lean ====
section
/-! DEFINITION. One step of the machine, and the placing of an instruction where the next step takes it. -/

namespace Sys2Proof.Machine

/-- One step (41_primitives.md R103). -/
def step (s : State) : Host.Outcome State Fault Refusal :=
  if s.rst then resetStep s else engineStep (beginStep s)

/-- An instruction of the host's table placed where the next step takes it: on the command port (three bytes), or at the
primitive interface (two). -/
def State.withFetchWord (s : State) (nbits w : Nat) : State :=
  if nbits ≤ 16 then placePrim (BitVec.ofNat 10 w) s else placeCommand (BitVec.ofNat 18 w) s

end Sys2Proof.Machine
end

