-- ==== Sys2Proof/Safety.lean ====
section
/-! DEFINITION. What counts as a safe run: the invariants every step keeps, and the words the statements are written in. -/

namespace Sys2Proof.Machine

/-- The running operation has this step (42_read_byte.md R120, 43_invalidate.md R139); S3 and V3 exist in `ADDR16` only. -/
def hasStage (a : AddrCfg) : Op → Stage → Bool
  | .read, .s3 => addrMode a == .addr16
  | .read, .vf => false
  | .read, _ => true
  | .inval, .s1 => true
  | .inval, .s2 => true
  | .inval, .s3 => addrMode a == .addr16
  | .inval, .s4 => true
  | .inval, .vf => true
  | .inval, _ => false
  | .init, _ => false
  | .none, _ => false

/-- A transaction runs: `READ_BYTE` or `INVALIDATE` is in progress. -/
def transacting (s : State) : Bool := s.op == .read || s.op == .inval

/-- What holds while a step of the running operation is about to issue or being polled: the operation has the step, a retry
is left, a start is confirmed beyond step 1, a fill byte is left in the fill loop, and nothing is captured yet. -/
structure StageInv (s : State) (l : Stage) : Prop where
  has_stage    : hasStage s.cfg.addr s.op l = true
  retry_left   : s.retryCnt < s.cfg.retryMax.val
  is_started   : l ≠ .s1 → s.started = true
  fill_left    : l = .vf → s.fillCnt < fillSize
  not_captured : s.op = .read → s.captured = false

/-- The transitions of `phase` (10_state.md R22): the happy paths of the two operations, the busy-retry and
arbitration-loss edges to `StartPending`, the cleanup edges to `Stopped`, and the exits to `Idle`. -/
def phaseEdge : Phase → Phase → Bool
  | .idle, .startPending => true
  | .startPending, .deviceSelected => true
  | .deviceSelected, .addressHighSent => true
  | .deviceSelected, .addressLowSent => true
  | .addressHighSent, .addressLowSent => true
  | .addressLowSent, .repeatedStartPending => true
  | .addressLowSent, .writeAckReceived => true
  | .repeatedStartPending, .readSelected => true
  | .readSelected, .byteReceived => true
  | .writeAckReceived, .writeAckReceived => true
  | p, .startPending => p != .byteReceived && p != .stopped
  | p, .stopped => p != .idle && p != .stopped
  | .stopped, .idle => true
  | .startPending, .idle => true
  | _, _ => false

/-- How the sequencer, `phase`, `op` and `started` hang together (10_state.md R20 to R23, R26). -/
def seqInv (s : State) : Prop :=
  match s.seq with
  | .ready => s.phase = .idle ∧ s.op = .none
  | .issue (.stage l) => StageInv s l ∧ phaseEdge s.phase (phaseOf (.stage l)) = true
  | .issue .cleanup => transacting s = true ∧ phaseEdge s.phase .stopped = true
  | .poll l => StageInv s l ∧ s.phase = phaseOf (.stage l) ∧ s.pollCnt < s.cfg.pollMax.val
  | .respond =>
    (s.op = .init ∧ s.phase = .idle) ∨
    (transacting s = true ∧ (s.phase = .stopped ∨ (s.phase = .startPending ∧ s.started = false)))

/-- The invariant of the machine. -/
structure EngineInv (s : State) : Prop where
  seq_ok      : seqInv s
  /-- 10_state.md R14 -/
  retry_le    : s.retryCnt ≤ s.cfg.retryMax.val
  /-- 10_state.md R15 -/
  poll_le     : s.pollCnt ≤ s.cfg.pollMax.val
  /-- 10_state.md R16 -/
  fill_le     : s.fillCnt ≤ fillSize
  /-- 70_reset_and_hazards.md R186 -/
  enabled     : transacting s = true → s.ctlEn = true
  /-- 10_state.md R13 -/
  sentinel    : s.op = .read → s.captured = false → s.result = failSentinel
  /-- 30_encoding.md R69 -/
  zero_offset : s.op = .inval → s.off = 0
  /-- 30_encoding.md R67 -/
  no_high     : addrMode s.cfg.addr = .addr8f → s.phase ≠ .addressHighSent
  /-- 43_invalidate.md R140: `INVALIDATE` never enters the read phases -/
  inval_phase : s.op = .inval →
    s.phase ≠ .repeatedStartPending ∧ s.phase ≠ .readSelected ∧ s.phase ≠ .byteReceived
  /-- the canonical form of the device's memory -/
  mem_wf      : Memory.wf s.mem = true

/-- The bus trace of the running operation (41_primitives.md R96, 60_exceptions.md R162): it begins with a start; the stop
is in it once `phase` is `Stopped`, once, as its last item, and not before; a reception comes directly after a read select,
and `SelR` is what was sent last when a reception is due. -/
structure TraceInv (s : State) : Prop where
  first_start : transacting s = true → s.trace = [] ∨ s.trace.head? = some .start
  one_stop    : transacting s = true → s.trace.count .stop = if s.phase = .stopped then 1 else 0
  stop_last   : transacting s = true → s.phase = .stopped → s.trace.getLast? = some .stop
  rx_after    : transacting s = true → ∀ pre post, s.trace = pre ++ .read :: post →
    pre.getLast? = some (.write (selR s.cfg.addr s.off))
  sel_read    : transacting s = true → s.seq = .poll .s6 ∨ s.seq = toStage .s7 →
    s.trace.getLast? = some (.write (selR s.cfg.addr s.off))
  empty_first : transacting s = true → s.trace = [] → s.seq = toStage .s1
  init_empty  : s.op = .init → s.trace = []

/-- How many primitives a pass from step 1 has issued when a step is about to issue, without its fill bytes. -/
def issuedBefore (a : AddrCfg) : Stage → Nat
  | .s1 => 0
  | .s2 => 1
  | .s3 => 2
  | .s4 => 1 + addrBytes a
  | .s5 => 2 + addrBytes a
  | .vf => 2 + addrBytes a
  | .s6 => 3 + addrBytes a
  | .s7 => 4 + addrBytes a

/-- The bound on the primitives of an operation without arbitration loss (42_read_byte.md R121, 43_invalidate.md R140):
`2 * RETRY_MAX + 6` in `ADDR16` and one fewer in `ADDR8F` for `READ_BYTE`, `2 * RETRY_MAX + 2 + FILL_SIZE + 1` and one fewer
for `INVALIDATE`. -/
def primitiveBound (p : Params) (o : Op) : Nat :=
  2 * p.retryMax.val + addrBytes p.addr + (if o = .inval then fillSize + 1 else 4)

/-- No arbitration loss in the running operation. -/
def noArbLoss (s : State) : Prop := ∀ e ∈ s.errors, e.error ≠ .arbLost

/-- The count of primitives issued, as long as the operation has met no arbitration loss. -/
def CountInv (s : State) : Prop :=
  transacting s = true → noArbLoss s →
    match s.seq with
    | .issue (.stage l) =>
      s.trace.length = 2 * s.retryCnt + issuedBefore s.cfg.addr l + (if l = .vf then s.fillCnt else 0)
    | .poll l =>
      s.trace.length = 2 * s.retryCnt + issuedBefore s.cfg.addr l + (if l = .vf then s.fillCnt else 0) + 1
    | .issue .cleanup => s.trace.length + 1 ≤ primitiveBound s.cfg s.op
    | .respond => s.trace.length ≤ primitiveBound s.cfg s.op
    | .ready => True

/-- `v` is the state in which stage `l`'s sample looks at `CTL_DONE`: the pulses have ended and the environment has moved. -/
structure Samples (s : State) (l : Stage) (v : State) : Prop where
  no_reset : s.rst = false
  polling  : s.seq = .poll l
  view     : v = envStep (beginStep s)

/-- The sample sees completion, and its status has class `c` (41_primitives.md R97 to R99). -/
structure SeesClass (s : State) (l : Stage) (c : StatusClass) (v : State) : Prop extends Samples s l v where
  done  : v.ctlDone = true
  cls   : classify v.cfg.classRows (kindOf l) v.ctlStatus = c

/-- The sample is the last permitted one and sees no completion (41_primitives.md R97). -/
structure SeesTimeout (s : State) (l : Stage) (v : State) : Prop extends Samples s l v where
  empty : v.ctlDone = false
  last  : v.pollCnt + 1 = v.cfg.pollMax.val

end Sys2Proof.Machine
end

