-- ==== Sys2Proof/Certificates/Slice0/Obligations.lean ====
section
/-! DEFINITION. The statements for the provers.  Each docstring names the rule of spec/ or the model's own choice it rests on. -/

open Sys2Proof Sys2Proof.Machine

/-! ### Encoding -/

/-- Words written out from the encodings of 30_encoding.md R61 and R70 (95_test_vectors.md T1 to T9). -/
def Obligations.WordsDecodeAsTabulated : Prop :=
  decodeCmd 0x10000 = .ok .init ∧ decodeCmd 0x1FFFF = .ok .init ∧
  decodeCmd 0x20000 = .ok (.readByte 0) ∧ decodeCmd 0x20123 = .ok (.readByte 0x0123) ∧
  decodeCmd 0x2FFFF = .ok (.readByte 0xFFFF) ∧
  decodeCmd 0x30000 = .ok .invalidate ∧ decodeCmd 0x3ABCD = .ok .invalidate ∧
  decodeCmd 0x00000 = .error .reservedCommand ∧ decodeCmd 0x0FFFF = .error .reservedCommand ∧
  decodePrim 0x000 = .start ∧ decodePrim 0x0FF = .start ∧ decodePrim 0x1A0 = .tx 0xA0 ∧ decodePrim 0x100 = .tx 0 ∧
  decodePrim 0x1FF = .tx 0xFF ∧ decodePrim 0x200 = .rxNack ∧ decodePrim 0x300 = .stop

/-- Every instruction is read back from its own word, and from the bytes of its word. -/
def Obligations.DecodeInvertsEncode : Prop :=
  ∀ i : Instr, decode (encode i) = .ok i ∧ decodeBytes (Fetched.toBytes (encode i)) = .ok i

/-- Every word read as an instruction agrees with that instruction's own word on the bits the opcode table fixes, and on
every bit of an operand; only words with command code `0b00` are refused (30_encoding.md R61, R64, R70). -/
def Obligations.DecodedWordHoldsItsFields : Prop :=
  (∀ w : CmdWord, decodeCmd w = .error .reservedCommand ↔ w &&& 0x30000 = 0) ∧
  (∀ (w : CmdWord) (i : Instr), decodeCmd w = .ok i →
    i.format = .cmd ∧ ∃ w' : CmdWord, encode i = .cmd w' ∧ w &&& 0x30000 = w' &&& 0x30000 ∧
      (w &&& 0x30000 = 0x20000 → w' = w)) ∧
  (∀ w : PrimWord, ∃ w' : PrimWord, encode (decodePrim w) = .prim w' ∧ w &&& 0x300 = w' &&& 0x300 ∧
      (w &&& 0x300 = 0x100 → w' = w))

/-- The select bytes bit by bit (30_encoding.md R66; the layout is the spec's own, D6). -/
def Obligations.SelectByteLayout : Prop :=
  ∀ (a : AddrCfg) (off : Offset),
    (selW a off).getLsbD 0 = false ∧ selR a off = selW a off ||| 1 ∧ (selR a off).getLsbD 0 = true ∧
    (selW a off).extractLsb' 4 4 = (devClassAddr a).extractLsb' 4 4 ∧
    (∀ cls, a = .addr16 cls → selW a off = devClassAddr a) ∧
    (∀ cls, a = .addr8f cls → (selW a off).extractLsb' 1 3 = off.extractLsb' 8 3)

/-- The high address byte is `off[15:8]`: in `ADDR16` an acknowledged write select leads to the step that sends it; in
`ADDR8F` that step and the phase `AddressHighSent` are never entered, so no such byte is sent (30_encoding.md R67). -/
def Obligations.HighAddressByteOnlyInAddr16 : Prop :=
  (∀ (a : AddrCfg) (off : Offset), decodePrim (primWord a off (.stage .s3)) = .tx (off.extractLsb' 8 8)) ∧
  (∀ s v, transacting s = true → addrMode s.cfg.addr = .addr16 → SeesClass s .s2 .success v →
    step s = .next { cached v with seq := .issue (.stage .s3) }) ∧
  (∀ s t, EngineInv s → addrMode s.cfg.addr = .addr8f → step s = .next t →
    t.phase ≠ .addressHighSent ∧ s.seq ≠ toStage .s3)

/-- The low, or only, address byte is `off[7:0]` in both modes (30_encoding.md R68). -/
def Obligations.LowAddressByteInBothModes : Prop :=
  ∀ (a : AddrCfg) (off : Offset), decodePrim (primWord a off (.stage .s4)) = .tx (off.extractLsb' 0 8)

/-- `INVALIDATE` keeps offset zero, so its select byte is `DEV_CLASS_ADDR` and its address bytes are zero; its data bytes are
`0xFF`; it never sends the read-direction select byte (30_encoding.md R69). -/
def Obligations.InvalidateSendsZeroOffsetAndFill : Prop :=
  (∀ a : AddrCfg, selW a 0 = devClassAddr a ∧
    decodePrim (primWord a 0 (.stage .s2)) = .tx (devClassAddr a) ∧
    decodePrim (primWord a 0 (.stage .s3)) = .tx 0 ∧
    decodePrim (primWord a 0 (.stage .s4)) = .tx 0 ∧
    (∀ off, decodePrim (primWord a off (.stage .vf)) = .tx 0xFF)) ∧
  (∀ s t, EngineInv s → step s = .next t → t.op = .inval →
    t.off = 0 ∧ t.seq ≠ toStage .s6 ∧ t.seq ≠ .poll .s6 ∧ t.phase ≠ .readSelected)

/-- The default `Classify` table (30_encoding.md R71, general knowledge G2): what a status means is decided by `s[7:3]`. -/
def Obligations.DefaultClassifyTable : Prop :=
  ∀ (k : PhaseKind) (s : Byte), classify defaultClassRows k s =
    (if s &&& 0xF8 = 0x38 then .arbLost
    else match k with
      | .startK => if s &&& 0xF8 = 0x08 ∨ s &&& 0xF8 = 0x10 then .success else .unexpected
      | .selWK =>
        if s &&& 0xF8 = 0x18 then .success else if s &&& 0xF8 = 0x20 then .notReady else .unexpected
      | .selRK =>
        if s &&& 0xF8 = 0x40 then .success else if s &&& 0xF8 = 0x48 then .notReady else .unexpected
      | .addrK =>
        if s &&& 0xF8 = 0x28 then .success else if s &&& 0xF8 = 0x30 then .rejected else .unexpected
      | .fillK =>
        if s &&& 0xF8 = 0x28 then .success else if s &&& 0xF8 = 0x30 then .rejected else .unexpected
      | .recvK => if s &&& 0xF8 = 0x50 ∨ s &&& 0xF8 = 0x58 then .success else .unexpected)

/-! ### What one step does -/

/-- A presented command is accepted when `cmd_ready = 1`: the step runs the decoded instruction, with what the step before
showed ended (`beginStep`) and the command taken from the port (30_encoding.md R62). -/
def Obligations.StepRunsPresentedCommand : Prop :=
  ∀ (s : State) (w : CmdWord) (rest : List CmdWord) (i : Instr),
    s.rst = false → s.seq = .ready → cmdReady s = true → s.program = w :: rest → decodeCmd w = .ok i →
    step s = exec i { beginStep s with program := rest }

/-- A step that issues runs the decoded primitive, with what the step before showed ended (`beginStep`), `phase` at the
value of 10_state.md R21, and the sequencer at what follows the issue (41_primitives.md R103). -/
def Obligations.StepRunsIssuedPrimitive : Prop :=
  ∀ (s : State) (t : Target), s.rst = false → s.seq = .issue t →
    step s = exec (decodePrim (primWord s.cfg.addr s.off t))
      { beginStep s with phase := phaseOf t, seq := afterIssue t }

/-- With no command presented a ready block waits (70_reset_and_hazards.md R181): nothing changes but the one-step pulses
and the values the spec leaves open, `CTL_STATUS` and a received `CTL_DATA` (R190), and the model's choice (assumption
log 24) `rsp_data` and `diag_char` without their pulse. -/
def Obligations.ReadyBlockWaits : Prop :=
  ∀ s : State, s.rst = false → s.seq = .ready → s.program = [] →
    step s = .next (beginStep s) ∧
    beginStep s = { s with
      rspValid := false
      diagValid := false
      ctlStrobe := false
      ctlStatus := (beginStep s).ctlStatus
      ctlData := (beginStep s).ctlData
      rspData := (beginStep s).rspData
      diagChar := (beginStep s).diagChar
      draws := (beginStep s).draws } ∧
    (s.received = false → (beginStep s).ctlData = s.ctlData)

/-- The reserved command code is refused when it is accepted ("A model refuses it", 30_encoding.md R64). -/
def Obligations.ReservedCommandRefused : Prop :=
  ∀ (s : State) (w : CmdWord) (rest : List CmdWord),
    s.rst = false → s.seq = .ready → cmdReady s = true → s.program = w :: rest → w &&& 0x30000 = 0 →
    step s = .refused .reservedCommand

/-- `INIT` (40_init.md R80): the divider, the enable and the newline, then the response; the record says that nothing else
changes but `op`, the sequencer and the records the acceptance clears, so `phase`, `LAST_STATUS`, `result` and the counters
are as they were, no status is read and no primitive is issued. -/
def Obligations.InitConfiguresEnablesAndResponds : Prop :=
  ∀ s : State, ∃ t, exec .init s = .next t ∧
    t = { s with
      ctlDiv := if s.cfg.fSys.val < s.cfg.fThreshold.val then s.cfg.divLow else Config.divFor100k s.cfg.fSys.val
      ctlEn := true
      diagValid := true
      diagChar := newline
      sink := s.sink ++ [newline]
      op := .init
      seq := .respond
      trace := []
      errors := [] } ∧
    (s.rst = false → ∃ u, step t = .next u ∧ u.rspValid = true ∧ u.op = .none ∧ u.phase = .idle ∧ u.seq = .ready ∧
      u.ctlDiv = t.ctlDiv ∧ u.ctlEn = true ∧ u.sink = t.sink ∧ u.lastStatus = s.lastStatus ∧ u.result = s.result ∧
      u.retryCnt = s.retryCnt ∧ u.pollCnt = s.pollCnt ∧ u.fillCnt = s.fillCnt ∧ u.ctlPrim = s.ctlPrim ∧
      u.hidden = s.hidden ∧ u.script = s.script ∧ u.trace = [])

/-- A second `INIT` writes the same values and emits a second newline (40_init.md R85, an inference the spec marks). -/
def Obligations.SecondInitChangesNoSetting : Prop :=
  ∀ s t u v : State, exec .init s = .next t → step t = .next u → exec .init u = .next v → s.rst = false →
    v.ctlDiv = t.ctlDiv ∧ v.ctlEn = t.ctlEn ∧ v.sink = s.sink ++ [newline, newline]

/-- The entry of `READ_BYTE` (42_read_byte.md section 1), with `CTL_EN = 1`. -/
def Obligations.ReadByteEntry : Prop :=
  ∀ (s : State) (off : Offset), s.ctlEn = true →
    ∃ t, exec (.readByte off) s = .next t ∧ t.op = .read ∧ t.off = off ∧ t.result = 0xFF ∧ t.captured = false ∧
      t.started = false ∧ t.retryCnt = 0 ∧ t.seq = .issue (.stage .s1) ∧ t.trace = [] ∧ t.errors = []

/-- The entry of `INVALIDATE` with `CTL_EN = 1`; `fill_cnt` is not initialised there but on entry to the fill loop, which an
acknowledged low address byte makes (43_invalidate.md R131). -/
def Obligations.InvalidateEntry : Prop :=
  (∀ s : State, s.ctlEn = true →
    ∃ t, exec .invalidate s = .next t ∧ t.op = .inval ∧ t.off = 0 ∧ t.started = false ∧ t.retryCnt = 0 ∧
      t.seq = .issue (.stage .s1) ∧ t.fillCnt = s.fillCnt ∧ t.trace = [] ∧ t.errors = []) ∧
  (∀ s v : State, SeesClass s .s4 .success v → s.op = .inval →
    step s = .next { cached v with fillCnt := 0, seq := .issue (.stage .vf) })

/-- An operation presented while `CTL_EN = 0` is refused ("A model refuses the run", 70_reset_and_hazards.md R186). -/
def Obligations.OperationBeforeInitRefused : Prop :=
  ∀ (s : State) (off : Offset), s.ctlEn = false →
    exec (.readByte off) s = .refused .operationBeforeInit ∧ exec .invalidate s = .refused .operationBeforeInit

/-- What the three commands leave unchanged.  That `CTL_STATUS`, a received `CTL_DATA` and `rsp_data` are left as they are
is said of `exec` alone: between steps they become any value (`beginStep`; 70_reset_and_hazards.md R190, log 24). -/
def Obligations.CommandFrame : Prop :=
  (∀ (i : Instr) (s t : State), i.format = .cmd → exec i s = .next t →
    t.cfg = s.cfg ∧ t.phase = s.phase ∧ t.pollCnt = s.pollCnt ∧ t.fillCnt = s.fillCnt ∧ t.lastStatus = s.lastStatus ∧
    t.ctlPrim = s.ctlPrim ∧ t.ctlStrobe = s.ctlStrobe ∧ t.ctlData = s.ctlData ∧ t.ctlDone = s.ctlDone ∧
    t.ctlStatus = s.ctlStatus ∧ t.rst = s.rst ∧ t.program = s.program ∧ t.rspValid = s.rspValid ∧
    t.rspData = s.rspData ∧ t.hidden = s.hidden ∧ t.script = s.script ∧ t.received = s.received ∧
    t.draws = s.draws ∧ ∀ a, Memory.read t.mem a = Memory.read s.mem a) ∧
  (∀ s t : State, exec .init s = .next t →
    t.off = s.off ∧ t.result = s.result ∧ t.retryCnt = s.retryCnt ∧ t.captured = s.captured ∧ t.started = s.started) ∧
  (∀ (i : Instr) (s t : State), i.format = .cmd → i ≠ .init → exec i s = .next t →
    t.ctlDiv = s.ctlDiv ∧ t.ctlEn = s.ctlEn ∧ t.diagValid = s.diagValid ∧ t.diagChar = s.diagChar ∧ t.sink = s.sink) ∧
  (∀ s t : State, exec .invalidate s = .next t → t.result = s.result ∧ t.captured = s.captured)

/-- `START` and `RX_NACK`: `Issue` of a primitive without data (41_primitives.md section 1 and 2). -/
def Obligations.StartAndReceiveAreIssued : Prop :=
  ∀ s : State,
    (∃ t, exec .start s = .next t ∧ t.ctlPrim = 0 ∧ t.ctlStrobe = true ∧ t.ctlDone = false ∧ t.pollCnt = 0 ∧
      t.ctlData = s.ctlData ∧ t.hidden.requests = s.hidden.requests ++ [0x000] ∧
      t.trace = s.trace ++ [if s.phase = .repeatedStartPending then .restart else .start]) ∧
    (∃ t, exec .rxNack s = .next t ∧ t.ctlPrim = 2 ∧ t.ctlStrobe = true ∧ t.ctlDone = false ∧ t.pollCnt = 0 ∧
      t.ctlData = s.ctlData ∧ t.hidden.requests = s.hidden.requests ++ [0x200] ∧ t.trace = s.trace ++ [.read])

/-- `TX(b)`: the byte goes to `CTL_DATA`, the kind to `CTL_PRIM`, `CTL_DONE` and `poll_cnt` are cleared
(41_primitives.md section 1 and 2). -/
def Obligations.TransmitIsIssued : Prop :=
  ∀ (s : State) (b : Byte), ∃ t, exec (.tx b) s = .next t ∧ t.ctlData = b ∧ t.ctlPrim = 1 ∧ t.ctlStrobe = true ∧
    t.ctlDone = false ∧ t.pollCnt = 0 ∧ t.hidden.requests = s.hidden.requests ++ [1#2 ++ b] ∧
    t.trace = s.trace ++ [.write b]

/-- `STOP` is issued and not polled: it leaves `poll_cnt`, `CTL_DATA` and `LAST_STATUS`, and the engine's next step after
issuing it is the response (41_primitives.md section 2). -/
def Obligations.StopIsIssuedAndNotPolled : Prop :=
  (∀ s : State, ∃ t, exec .stop s = .next t ∧ t.ctlPrim = 3 ∧ t.ctlStrobe = true ∧ t.ctlDone = false ∧
    t.pollCnt = s.pollCnt ∧ t.ctlData = s.ctlData ∧ t.lastStatus = s.lastStatus ∧
    t.hidden.requests = s.hidden.requests ++ [0x300] ∧ t.trace = s.trace ++ [.stop]) ∧
  (∀ s t : State, s.rst = false → s.seq = .issue .cleanup → step s = .next t →
    t.seq = .respond ∧ t.pollCnt = s.pollCnt ∧ t.lastStatus = s.lastStatus)

/-- What the four primitives leave unchanged; each stores nothing in the device's memory by itself.  That `CTL_STATUS` and
`rsp_data` are left as they are is said of `exec` alone: between steps they become any value (`beginStep`;
70_reset_and_hazards.md R190, log 24). -/
def Obligations.PrimitiveFrame : Prop :=
  (∀ (i : Instr) (s t : State), i.format = .prim → exec i s = .next t →
    t.cfg = s.cfg ∧ t.op = s.op ∧ t.off = s.off ∧ t.result = s.result ∧ t.retryCnt = s.retryCnt ∧
    t.fillCnt = s.fillCnt ∧ t.phase = s.phase ∧ t.seq = s.seq ∧ t.captured = s.captured ∧ t.started = s.started ∧
    t.ctlDiv = s.ctlDiv ∧ t.ctlEn = s.ctlEn ∧ t.ctlStatus = s.ctlStatus ∧ t.lastStatus = s.lastStatus ∧
    t.rst = s.rst ∧ t.program = s.program ∧ t.rspValid = s.rspValid ∧ t.rspData = s.rspData ∧
    t.diagValid = s.diagValid ∧ t.diagChar = s.diagChar ∧ t.script = s.script ∧ t.draws = s.draws ∧
    t.sink = s.sink ∧ t.errors = s.errors ∧
    t.hidden = { s.hidden with requests := t.hidden.requests } ∧
    ∀ a, Memory.read t.mem a = Memory.read s.mem a) ∧
  (∀ (i : Instr) (s t : State), i.format = .prim → (∀ b, i ≠ .tx b) → exec i s = .next t →
    t.ctlData = s.ctlData ∧ t.received = s.received) ∧
  (∀ s t : State, exec .stop s = .next t → t.pollCnt = s.pollCnt)

/-! ### The poll loop -/

/-- A sample that sees no completion before the last permitted one only counts (41_primitives.md R97); `CTL_STATUS` and a
received `CTL_DATA` are then any value again (70_reset_and_hazards.md R190). -/
def Obligations.EmptySampleIsCounted : Prop :=
  ∀ (s v : State) (l : Stage), Samples s l v → v.ctlDone = false → v.pollCnt + 1 ≠ v.cfg.pollMax.val →
    step s = .next (counted v) ∧
    counted v = { v with
      pollCnt := v.pollCnt + 1
      ctlStatus := (counted v).ctlStatus
      ctlData := (counted v).ctlData
      draws := (counted v).draws } ∧
    (v.received = false → (counted v).ctlData = v.ctlData)

/-- Each phase's poll loop ends within what is left of `POLL_MAX` samples, in every environment
(95_test_vectors.md X3, 41_primitives.md R97). -/
def Obligations.PollLoopEndsWithinPollMax : Prop :=
  ∀ (s : State) (l : Stage), EngineInv s → s.rst = false → s.seq = .poll l →
    ∃ (k : Nat) (t : State), 1 ≤ k ∧ k ≤ s.cfg.pollMax.val - s.pollCnt ∧
      Host.Core.run Sys2Proof.core k s = .next t ∧ t.seq ≠ .poll l

/-- `LAST_STATUS` is written by a completed sample, with `CTL_STATUS`, and by nothing else but reset
(41_primitives.md R98). -/
def Obligations.LastStatusWrittenOnlyAtCompletion : Prop :=
  (∀ (s v t : State) (l : Stage) (c : StatusClass), SeesClass s l c v → step s = .next t → t.lastStatus = v.ctlStatus) ∧
  (∀ s t : State, s.rst = false → step s = .next t → t.lastStatus ≠ s.lastStatus →
    ∃ (l : Stage) (c : StatusClass) (v : State), SeesClass s l c v)

/-! ### The step rules -/

/-- The rows of the table of 42_read_byte.md R120 for S1 to S6, as what the step answers: the success and timeout columns,
the `Rejected` column of S3 and S4, and the `NotReady` column of S6.  The other columns are UnanticipatedStatusCleansUp,
ArbitrationLossRestartsAtStepOne and BusyRetryUntilCeiling. -/
def Obligations.ReadStepTable : Prop :=
  ∀ (s v : State), s.op = .read →
    (SeesClass s .s1 .success v → step s = .next { cached v with started := true, seq := .issue (.stage .s2) }) ∧
    (SeesTimeout s .s1 v → step s = .next
      { raise .startTimeout .plain (counted v) with seq := if v.started then .issue .cleanup else .respond }) ∧
    (SeesClass s .s2 .success v → step s = .next
      { cached v with seq := if addrMode v.cfg.addr = .addr16 then .issue (.stage .s3) else .issue (.stage .s4) }) ∧
    (SeesClass s .s3 .success v → step s = .next { cached v with seq := .issue (.stage .s4) }) ∧
    (SeesClass s .s4 .success v → step s = .next { cached v with seq := .issue (.stage .s5) }) ∧
    (SeesClass s .s5 .success v → step s = .next { cached v with seq := .issue (.stage .s6) }) ∧
    (SeesClass s .s6 .success v → step s = .next { cached v with seq := .issue (.stage .s7) }) ∧
    (SeesClass s .s6 .notReady v → step s = .next
      { raise .notReady .terminal (cached v) with seq := .issue .cleanup }) ∧
    (∀ l, l = .s3 ∨ l = .s4 → SeesClass s l .rejected v → step s = .next
      { raise .rejected .benign (cached v) with seq := .issue .cleanup }) ∧
    (∀ l, l = .s2 ∨ l = .s3 ∨ l = .s4 ∨ l = .s5 ∨ l = .s6 → SeesTimeout s l v → step s = .next
      { raise .phaseTimeout .plain (counted v) with seq := .issue .cleanup })

/-- Step 7, all six outcomes; arbitration loss does not restart the operation here (42_read_byte.md R117; the capture is
R118's).  The step is `phase <- ByteReceived` and `Phase(RecvK, RX_NACK)`. -/
def Obligations.DataPhaseOutcomes : Prop :=
  phaseOf (.stage .s7) = .byteReceived ∧ kindOf .s7 = .recvK ∧
  (∀ (a : AddrCfg) (off : Offset), decodePrim (primWord a off (.stage .s7)) = .rxNack) ∧
  ∀ (s v : State), s.op = .read →
    (SeesClass s .s7 .success v → step s = .next
      { cached v with result := v.ctlData, captured := true, seq := .issue .cleanup }) ∧
    (SeesTimeout s .s7 v → step s = .next
      { raise .phaseTimeout .plain (counted v) with seq := .issue .cleanup }) ∧
    (∀ c, c ≠ .success → SeesClass s .s7 c v → step s = .next
      { raise .protocol .plain (cached v) with seq := .issue .cleanup })

/-- The rows of the table of 43_invalidate.md R139, as what the step answers: the success and timeout columns, and the
`Rejected` column of V3, V4 and VF.  The other columns are UnanticipatedStatusCleansUp, ArbitrationLossRestartsAtStepOne and
BusyRetryUntilCeiling. -/
def Obligations.InvalidateStepTable : Prop :=
  ∀ (s v : State), s.op = .inval →
    (SeesClass s .s1 .success v → step s = .next { cached v with started := true, seq := .issue (.stage .s2) }) ∧
    (SeesTimeout s .s1 v → step s = .next
      { raise .startTimeout .plain (counted v) with seq := if v.started then .issue .cleanup else .respond }) ∧
    (SeesClass s .s2 .success v → step s = .next
      { cached v with seq := if addrMode v.cfg.addr = .addr16 then .issue (.stage .s3) else .issue (.stage .s4) }) ∧
    (SeesClass s .s3 .success v → step s = .next { cached v with seq := .issue (.stage .s4) }) ∧
    (SeesClass s .s4 .success v → step s = .next { cached v with fillCnt := 0, seq := .issue (.stage .vf) }) ∧
    (SeesClass s .vf .success v → step s = .next
      { cached v with
        fillCnt := v.fillCnt + 1
        seq := if v.fillCnt + 1 < 8 then .issue (.stage .vf) else .issue .cleanup }) ∧
    (∀ l, l = .s3 ∨ l = .s4 → SeesClass s l .rejected v → step s = .next
      { raise .rejected .plain (cached v) with seq := .issue .cleanup }) ∧
    (SeesClass s .vf .rejected v → step s = .next
      { raise .rejected .terminal (cached v) with seq := .issue .cleanup }) ∧
    (∀ l, l = .s2 ∨ l = .s3 ∨ l = .s4 ∨ l = .vf → SeesTimeout s l v → step s = .next
      { raise .phaseTimeout .plain (counted v) with seq := .issue .cleanup })

/-- `E_START_TIMEOUT` (60_exceptions.md R151): raised when the poll loop of a `START` from `StartPending` ends with
`Timeout`; no stop if no start has been confirmed, else cleanup; a `READ_BYTE` responds `0xFF` either way. -/
def Obligations.StartTimeoutLeavesOrCleansUp : Prop :=
  ∀ s v : State, EngineInv s → SeesTimeout s .s1 v →
    ∃ t, step s = .next t ∧ t.errors = v.errors ++ [⟨.startTimeout, .plain, .startPending⟩] ∧ t.op = s.op ∧
      (v.started = false → t.seq = .respond ∧ t.trace = s.trace) ∧ (v.started = true → t.seq = .issue .cleanup) ∧
      (s.op = .read → t.result = 0xFF)

/-- `E_NOT_READY` and `E_RETRY_EXHAUSTED` (60_exceptions.md R152): a NACK of the write select is counted, and restarts at
step 1 without a stop while the count is below `RETRY_MAX`; when the count reaches it the operation goes to cleanup, and a
read has its sentinel to respond; a NACK of the read select is terminal at once. -/
def Obligations.BusyRetryUntilCeiling : Prop :=
  (∀ s v : State, EngineInv s → SeesClass s .s2 .notReady v → ∃ t, step s = .next t ∧
    t.retryCnt = v.retryCnt + 1 ∧ t.trace = s.trace ∧ t.op = s.op ∧ t.started = s.started ∧ t.off = s.off ∧
    (v.retryCnt + 1 < v.cfg.retryMax.val → t.seq = .issue (.stage .s1) ∧
      t.errors = v.errors ++ [⟨.notReady, .plain, .deviceSelected⟩]) ∧
    (¬ v.retryCnt + 1 < v.cfg.retryMax.val → t.seq = .issue .cleanup ∧ t.retryCnt = t.cfg.retryMax.val ∧
      t.errors = v.errors ++ [⟨.notReady, .plain, .deviceSelected⟩, ⟨.retryExhausted, .plain, .deviceSelected⟩]) ∧
    (s.op = .read → t.result = 0xFF)) ∧
  (∀ s v : State, s.op = .read → SeesClass s .s6 .notReady v → ∃ t, step s = .next t ∧
    t.seq = .issue .cleanup ∧ t.retryCnt = v.retryCnt ∧
    t.errors = v.errors ++ [⟨.notReady, .terminal, v.phase⟩]) ∧
  (∀ (a : AddrCfg) (off : Offset), decodePrim (primWord a off .cleanup) = .stop)

/-- `E_ARB_LOST` (60_exceptions.md R153): in every polled step but step 7, back to step 1, where a new `START` is issued;
`retry_cnt`, `started` and the bus trace are unchanged, so no stop is issued and nothing counts the restart; an `INVALIDATE`
enters its fill loop again from zero; in step 7 arbitration loss is `E_PROTOCOL`. -/
def Obligations.ArbitrationLossRestartsAtStepOne : Prop :=
  (∀ (s v : State) (l : Stage), SeesClass s l .arbLost v → hasStage s.cfg.addr s.op l = true → l ≠ .s7 →
    step s = .next { raise .arbLost .plain (cached v) with seq := .issue (.stage .s1) } ∧
    (raise .arbLost .plain (cached v)).retryCnt = s.retryCnt ∧
    (raise .arbLost .plain (cached v)).started = s.started ∧
    (raise .arbLost .plain (cached v)).trace = s.trace) ∧
  (∀ (a : AddrCfg) (off : Offset), decodePrim (primWord a off (.stage .s1)) = .start) ∧
  (∀ s v : State, s.op = .inval → SeesClass s .s4 .success v → ∃ t, step s = .next t ∧
    t.seq = .issue (.stage .vf) ∧ t.fillCnt = 0) ∧
  (∀ s v : State, s.op = .read → SeesClass s .s7 .arbLost v → ∃ t, step s = .next t ∧ t.seq = .issue .cleanup ∧
    t.errors = v.errors ++ [⟨.protocol, .plain, v.phase⟩])

/-- `E_PROTOCOL` (60_exceptions.md R155): class `Unexpected` in every step, and every class the step does not name, go to
cleanup, on the very first start too. -/
def Obligations.UnanticipatedStatusCleansUp : Prop :=
  ∀ (s v : State) (l : Stage) (c : StatusClass), SeesClass s l c v → hasStage s.cfg.addr s.op l = true →
    (c = .unexpected ∨
      ((l = .s1 ∨ l = .s5) ∧ (c = .notReady ∨ c = .rejected)) ∨
      ((l = .s2 ∨ l = .s6) ∧ c = .rejected) ∨
      ((l = .s3 ∨ l = .s4 ∨ l = .vf) ∧ c = .notReady) ∨
      (l = .s7 ∧ c ≠ .success)) →
    step s = .next { raise .protocol .plain (cached v) with seq := .issue .cleanup }

/-- What raising an error does (60_exceptions.md R150, R172): the trace records it, and a character is emitted only if
`DIAG_ENABLE` is set and `DiagCode` yields one; nothing else changes. -/
def Obligations.RaiseRecordsAndMayEmit : Prop :=
  ∀ (e : ErrorClass) (i : ErrorInfo) (s : State),
    raise e i s = { s with
      errors := s.errors ++ [⟨e, i, s.phase⟩]
      diagValid := (raise e i s).diagValid
      diagChar := (raise e i s).diagChar
      sink := (raise e i s).sink } ∧
    (s.cfg.diagEnable = false ∨ diagCode s.cfg.diagRows e i s.phase s.lastStatus = none →
      (raise e i s).diagValid = s.diagValid ∧ (raise e i s).diagChar = s.diagChar ∧ (raise e i s).sink = s.sink) ∧
    (∀ ch, s.cfg.diagEnable = true → diagCode s.cfg.diagRows e i s.phase s.lastStatus = some ch →
      (raise e i s).diagValid = true ∧ (raise e i s).diagChar = ch ∧ (raise e i s).sink = s.sink ++ [ch])

/-- Cleanup and exit (43_invalidate.md R138, 42_read_byte.md R119): cleanup sets `phase` to `Stopped` and issues `STOP`;
the exit responds, with `result` for a read (R119), and sets `op` to `NONE` and `phase` to `Idle`, and the registers keep
their last values (60_exceptions.md R165); that `CTL_PRIM`, a `CTL_DATA` not received, and the flag `received` are kept is
the model's (log 6); the exit is reached without cleanup only from a timeout at step 1 with `started = 0`,
but by `INIT`. -/
def Obligations.CleanupStopsThenResponds : Prop :=
  (∀ s : State, s.rst = false → s.seq = .issue .cleanup → ∃ t, step s = .next t ∧
    t.phase = .stopped ∧ t.trace = s.trace ++ [.stop] ∧ t.ctlPrim = 3 ∧ t.ctlStrobe = true ∧ t.seq = .respond ∧
    t.op = s.op ∧ t.result = s.result) ∧
  (∀ s : State, s.rst = false → s.seq = .respond → ∃ t, step s = .next t ∧
    t.rspValid = true ∧ (s.op = .read → t.rspData = s.result) ∧ t.op = .none ∧ t.phase = .idle ∧ t.seq = .ready ∧
    t.off = s.off ∧ t.result = s.result ∧ t.retryCnt = s.retryCnt ∧ t.pollCnt = s.pollCnt ∧ t.fillCnt = s.fillCnt ∧
    t.captured = s.captured ∧ t.started = s.started ∧ t.lastStatus = s.lastStatus ∧ t.ctlDiv = s.ctlDiv ∧
    t.ctlEn = s.ctlEn ∧ t.ctlPrim = s.ctlPrim ∧ t.ctlDone = s.ctlDone ∧
    (s.received = false → t.ctlData = s.ctlData) ∧ t.received = s.received ∧ t.cfg = s.cfg ∧ t.rst = s.rst ∧
    t.program = s.program ∧ t.hidden = s.hidden ∧ t.script = s.script ∧ t.sink = s.sink ∧ t.trace = s.trace ∧
    t.errors = s.errors ∧ ∀ a, Memory.read t.mem a = Memory.read s.mem a) ∧
  (∀ s t : State, s.rst = false → step s = .next t → t.seq = .respond → t.op ≠ .init →
    s.seq = .issue .cleanup ∨ ∃ v, SeesTimeout s .s1 v ∧ v.started = false)

/-- `rsp_valid` follows the response step and no other (30_encoding.md R63), that step makes the block ready, and a block
that is not ready stays so until then.  Whether a command comes to its response is OperationRespondsWithoutArbitrationLoss
and ArbitrationLossNeverEnds. -/
def Obligations.RspValidOnlyAfterResponseStep : Prop :=
  ∀ s t : State, EngineInv s → s.rst = false → step s = .next t →
    (t.rspValid = true ↔ s.seq = .respond) ∧
    (s.seq = .respond → cmdReady t = true ∧ t.seq = .ready) ∧
    (s.seq ≠ .ready → s.seq ≠ .respond → t.seq ≠ .ready ∧ t.op = s.op ∧ t.op ≠ .none)

/-! ### Rules of the whole machine -/

/-- The reset values the spec gives (70_reset_and_hazards.md R181). -/
def Obligations.ResetLeavesTheSpecsValues : Prop :=
  State.reset.phase = .idle ∧ State.reset.op = .none ∧ State.reset.captured = false ∧ State.reset.started = false ∧
  State.reset.ctlEn = false ∧ State.reset.ctlDone = false ∧ cmdReady State.reset = true ∧
  State.reset.rspValid = false ∧ State.reset.diagValid = false

/-- The reset input (70_reset_and_hazards.md R180 to R182).  With `phase = Idle` and no operation accepted, between the
acceptance of `INIT` and its response too, the block enters the reset state; with another `phase` the run is refused (R182).
The model's readings (log 8): reset keeps what is not the block's own; and an operation accepted but not yet issuing, its
`phase` still `Idle`, is refused too (93_implementation_defined.md U7, "during an operation"). -/
def Obligations.ResetInputResetsOrRefuses : Prop :=
  (∀ s : State, s.rst = true → s.phase = .idle → s.op = .none ∨ s.op = .init → ∃ t, step s = .next t ∧
    t.phase = .idle ∧ t.op = .none ∧ t.captured = false ∧ t.started = false ∧ t.ctlEn = false ∧ t.ctlDone = false ∧
    cmdReady t = true ∧ t.seq = .ready ∧ t.rst = false ∧ t.rspValid = false ∧ t.diagValid = false ∧
    t.cfg = s.cfg ∧ t.mem = s.mem ∧ t.hidden = s.hidden ∧ t.script = s.script ∧ t.program = s.program ∧
    t.sink = s.sink ∧ t.trace = []) ∧
  (∀ s : State, s.rst = true → s.phase ≠ .idle → step s = .refused .resetDuringOperation) ∧
  (∀ s : State, s.rst = true → s.op = .read ∨ s.op = .inval → step s = .refused .resetDuringOperation)

/-- The invariants hold after reset. -/
def Obligations.ResetMeetsTheInvariants : Prop :=
  EngineInv State.reset ∧ TraceInv State.reset ∧ CountInv State.reset

/-- Every step keeps the invariant of the machine: the ceilings of the counters (10_state.md R14 to R16), the agreement of
`phase`, `op` and `started`, the read sentinel (R13), the zero offset of `INVALIDATE`, and the canonical memory. -/
def Obligations.StepKeepsInvariant : Prop :=
  ∀ s t : State, EngineInv s → step s = .next t → EngineInv t

/-- Every step keeps the bus-trace invariant: one stop, last, only after cleanup; a start first; a reception only directly
after a read select (41_primitives.md R96, 60_exceptions.md R162, R163). -/
def Obligations.StepKeepsTraceOrder : Prop :=
  ∀ s t : State, EngineInv s → TraceInv s → step s = .next t → TraceInv t

/-- An operation that reaches its response has issued exactly one stop, as its last primitive, if it had a confirmed start
or reached cleanup, and none otherwise (60_exceptions.md R162). -/
def Obligations.TransactionEndsWithOneStop : Prop :=
  ∀ s : State, EngineInv s → TraceInv s → s.seq = .respond → transacting s = true →
    ((s.started = true ∨ s.phase = .stopped) → s.trace.count .stop = 1 ∧ s.trace.getLast? = some .stop) ∧
    (s.started = false → s.phase ≠ .stopped → s.trace.count .stop = 0)

/-- Without arbitration loss the primitives of an operation are bounded (42_read_byte.md R121, 43_invalidate.md R140): the
step keeps the exact count, and the count gives the bound. -/
def Obligations.StepKeepsPrimitiveBound : Prop :=
  (∀ s t : State, EngineInv s → CountInv s → step s = .next t → CountInv t) ∧
  (∀ s : State, EngineInv s → CountInv s → transacting s = true → noArbLoss s →
    s.trace.length ≤ primitiveBound s.cfg s.op)

/-- `phase` moves only along the edges of 10_state.md R22. -/
def Obligations.PhaseFollowsItsEdges : Prop :=
  ∀ s t : State, EngineInv s → s.rst = false → step s = .next t → t.phase = s.phase ∨ phaseEdge s.phase t.phase = true

/-- From a state of the invariant a step never faults, and is refused in three cases only: the reserved command, an operation
before `INIT`, and reset during an operation. -/
def Obligations.StepNeverFaultsAndSeldomRefuses : Prop :=
  ∀ s : State, EngineInv s →
    (∃ t, step s = .next t) ∨
    (step s = .refused .reservedCommand ∧ s.seq = .ready ∧ cmdWord s &&& 0x30000 = 0) ∨
    (step s = .refused .operationBeforeInit ∧ s.seq = .ready ∧ s.ctlEn = false) ∨
    (step s = .refused .resetDuringOperation ∧ s.rst = true ∧ transacting s = true)

/-- No step changes the build-time parameters (00_scope.md R6, 20_memory.md R55). -/
def Obligations.ParametersNeverChange : Prop :=
  ∀ s t : State, step s = .next t → t.cfg = s.cfg

/-- `CTL_EN`, once set, stays set but for reset; `CTL_DIV` is written by `INIT` alone (40_init.md R82, 10_state.md R28). -/
def Obligations.EnableAndDividerPersist : Prop :=
  ∀ s t : State, s.rst = false → step s = .next t →
    (s.ctlEn = true → t.ctlEn = true) ∧ (t.ctlDiv ≠ s.ctlDiv → s.seq = .ready ∧ t.op = .init)

/-- `off` is written only at acceptance, so a retry or restart sends the same offset (10_state.md R12); and `result` is
written only at the acceptance of a `READ_BYTE` and by its capture (R13). -/
def Obligations.OffsetAndResultWriters : Prop :=
  ∀ s t : State, s.rst = false → step s = .next t →
    (t.off ≠ s.off → s.seq = .ready ∧ (t.op = .read ∨ t.op = .inval)) ∧
    (t.result ≠ s.result → (s.seq = .ready ∧ t.op = .read) ∨ (s.op = .read ∧ ∃ v, SeesClass s .s7 .success v))

/-- `retry_cnt` is cleared at acceptance and otherwise only counts up by one, at a NACK of the write select
(10_state.md R14). -/
def Obligations.RetryCounterWriters : Prop :=
  ∀ s t : State, s.rst = false → step s = .next t → t.retryCnt ≠ s.retryCnt →
    (s.seq = .ready ∧ t.retryCnt = 0) ∨ (t.retryCnt = s.retryCnt + 1 ∧ ∃ v, SeesClass s .s2 .notReady v)

/-- Characters are only added; without `DIAG_ENABLE` the newline of `INIT` is the only one (60_exceptions.md R171, R172). -/
def Obligations.CharactersOnlyAdded : Prop :=
  ∀ s t : State, step s = .next t → ∃ more, t.sink = s.sink ++ more ∧ more.length ≤ 2 ∧
    (s.cfg.diagEnable = false → more ≠ [] → more = [newline] ∧ s.seq = .ready ∧ t.op = .init)

/-! ### What the engine does not depend on -/

/-- The environment's hidden state and the device's memory reach the engine only through `CTL_DONE`, `CTL_STATUS` and
`CTL_DATA`: two states that differ in them alone, with the same answer coming, take the same step but for them
(10_state.md R36).  An answer is computed from them by the chosen device alone, so only where its move comes, on the script
or as a free move, is the answer's being the same a premise. -/
def Obligations.HiddenStateStaysHidden : Prop :=
  ∀ (s : State) (h : Hidden) (m : Memory),
    (∀ l, s.seq = .poll l → nextMove (beginStep s) = .device →
      (serve s.cfg.addr h m).done = (serve s.cfg.addr s.hidden s.mem).done ∧
      (serve s.cfg.addr h m).status = (serve s.cfg.addr s.hidden s.mem).status ∧
      (serve s.cfg.addr h m).data = (serve s.cfg.addr s.hidden s.mem).data) →
    match step s with
    | .next t => ∃ h' m', step { s with hidden := h, mem := m } = .next { t with hidden := h', mem := m' }
    | .fault r => step { s with hidden := h, mem := m } = .fault r
    | .refused r => step { s with hidden := h, mem := m } = .refused r

/-- Diagnostics never change control flow, the bus trace or the response: with another `DIAG_ENABLE`, another `DiagCode` and
another diagnostic port, the same step is taken but for the characters (60_exceptions.md R172). -/
def Obligations.DiagnosticsChangeNothingElse : Prop :=
  ∀ (s : State) (en : Bool) (rows : List DiagRow) (dv : Bool) (dc : Byte) (out : List Byte),
    match step s with
    | .next t => ∃ dv' dc' out',
        step { s with
          cfg := { s.cfg with diagEnable := en, diagRows := rows }
          diagValid := dv, diagChar := dc, sink := out } =
        .next { t with
          cfg := { t.cfg with diagEnable := en, diagRows := rows }
          diagValid := dv', diagChar := dc', sink := out' }
    | .fault r => step { s with
        cfg := { s.cfg with diagEnable := en, diagRows := rows }
        diagValid := dv, diagChar := dc, sink := out } = .fault r
    | .refused r => step { s with
        cfg := { s.cfg with diagEnable := en, diagRows := rows }
        diagValid := dv, diagChar := dc, sink := out } = .refused r

/-- What the spec guarantees only for a moment is never read at another: `CTL_STATUS`, and `CTL_DATA` once received
(70_reset_and_hazards.md R190), `rsp_data` and `diag_char` (10_state.md R35) may hold any value between steps, and the same
step is taken. -/
def Obligations.MomentaryValuesAreNotReadLater : Prop :=
  ∀ (s : State) (status data rsp diag : Byte),
    step { s with
      ctlStatus := status
      ctlData := if s.received then data else s.ctlData
      rspData := rsp
      diagChar := diag } = step s

/-- While a command runs the command port is not looked at (30_encoding.md R62): another list of commands to come changes
nothing in the step but itself. -/
def Obligations.BusyEngineIgnoresCommands : Prop :=
  ∀ (s t : State) (p : List CmdWord), s.rst = false → s.seq ≠ .ready → step s = .next t →
    t.program = s.program ∧ step { s with program := p } = .next { t with program := p }

/-! ### Whole operations -/

/-- Arbitration loss without end keeps the operation in step 1 without end (70_reset_and_hazards.md R192): for every `n`,
answers classified `ArbLost` at `n` starts leave it, `2 n` steps later, about to issue `START` again, with `retry_cnt`
unchanged and no stop issued. -/
def Obligations.ArbitrationLossNeverEnds : Prop :=
  ∀ (n : Nat) (s : State) (st d : Byte) (h : Hidden), s.rst = false → transacting s = true →
    s.seq = .issue (.stage .s1) → classify s.cfg.classRows .startK st = .arbLost →
    s.script = List.replicate n (.oracle true st d h []) →
    ∃ t, Host.Core.run Sys2Proof.core (2 * n) s = .next t ∧ t.seq = .issue (.stage .s1) ∧ t.op = s.op ∧
      t.retryCnt = s.retryCnt ∧ t.started = s.started ∧ t.trace.count .stop = s.trace.count .stop

/-- Without arbitration loss every operation responds in bounded time (70_reset_and_hazards.md R197): if the answers to come
are on the script, each an `oracle` move, and none has class `ArbLost` in any phase kind, the block responds within the
steps of the primitive bound, each primitive taking one issue and at most `POLL_MAX` samples.  The moves of the chosen device
and the free moves past the script are left out. -/
def Obligations.OperationRespondsWithoutArbitrationLoss : Prop :=
  ∀ s : State, EngineInv s → s.rst = false → transacting s = true →
    (∀ m ∈ s.script, ∃ dn st d h ws, m = .oracle dn st d h ws ∧ ∀ k, classify s.cfg.classRows k st ≠ .arbLost) →
    (2 * s.cfg.retryMax.val + 11) * (s.cfg.pollMax.val + 1) + 1 ≤ s.script.length →
    ∃ (k : Nat) (t : State), k ≤ (2 * s.cfg.retryMax.val + 11) * (s.cfg.pollMax.val + 1) + 1 ∧
      Host.Core.run Sys2Proof.core k s = .next t ∧ t.rspValid = true ∧ cmdReady t = true

/-- What the chosen device makes of the primitives still outstanding when an operation begins: of none, nothing; of the one
an operation leaves that ended by cleanup, its `STOP`, a free bus, and a device busy for its write time if data bytes came
before (20_memory.md R52).  The oracle is the model's (assumption log 10). -/
def Obligations.OutstandingStopIsPerformed : Prop :=
  ∀ (a : AddrCfg) (h : Hidden) (m : Memory),
    (h.requests = [] → (serve a h m).hidden = h ∧ (serve a h m).mem = m ∧ (serve a h m).done = false) ∧
    (h.requests = [0x300] → (serve a h m).mem = m ∧ (serve a h m).done = true ∧
      (serve a h m).hidden = { h with
        requests := []
        bus := .free
        wbuf := []
        busy := if h.wbuf = [] then h.busy else h.writeTime })

/-- With the chosen device oracle, busy for fewer selections than `RETRY_MAX`, `READ_BYTE` returns the byte stored at the
offset, sends the frame of 30_encoding.md R65 after one `S W(SelW)` for each refused selection, and leaves the device's
memory (20_memory.md R41, 95_test_vectors.md X4, X6).  Busy time and memory are those once the primitives still outstanding,
such as the `STOP` of the operation before, have been performed (`serve`); the block is then ready for the next command, its
own `STOP` outstanding.  The oracle is the model's (assumption log 10). -/
def Obligations.ReadReturnsStoredByte : Prop :=
  ∀ (s : State) (w : CmdWord) (rest : List CmdWord) (off : Offset) (moves : List EnvMove) (r : Reply),
    s.rst = false → s.seq = .ready → cmdReady s = true → s.ctlEn = true → s.program = w :: rest →
    decodeCmd w = .ok (.readByte off) → s.cfg.classRows = defaultClassRows →
    r = serve s.cfg.addr s.hidden s.mem → r.hidden.busy < s.cfg.retryMax.val →
    s.script = List.replicate (2 * r.hidden.busy + 5 + addrBytes s.cfg.addr) .device ++ moves →
    ∃ t, Host.Core.run Sys2Proof.core (2 * (2 * r.hidden.busy + 5 + addrBytes s.cfg.addr) + 3) s = .next t ∧
      t.rspValid = true ∧ t.rspData = Memory.read r.mem (deviceOffset s.cfg.addr off) ∧ t.captured = true ∧
      t.retryCnt = r.hidden.busy ∧ t.errors.length = r.hidden.busy ∧ t.mem = r.mem ∧
      t.trace = (List.replicate r.hidden.busy [.start, .write (selW s.cfg.addr off)]).flatten ++
        [.start, .write (selW s.cfg.addr off)] ++
        (if addrMode s.cfg.addr = .addr16 then [.write (addrHi off)] else []) ++
        [.write (addrLo off), .restart, .write (selR s.cfg.addr off), .read, .stop] ∧
      t.rst = false ∧ t.seq = .ready ∧ cmdReady t = true ∧ t.ctlEn = true ∧ t.cfg = s.cfg ∧ t.program = rest ∧
      t.script = moves ∧ t.hidden.requests = [0x300] ∧ (serve t.cfg.addr t.hidden t.mem).hidden.busy = 0

/-- With the chosen device oracle, busy for `RETRY_MAX` selections or more, `READ_BYTE` fails: it responds `0xFF` after
`RETRY_MAX` selections, with one stop (95_test_vectors.md X5).  Busy time and memory are those once the primitives still
outstanding have been performed (`serve`).  The oracle is the model's (assumption log 10). -/
def Obligations.BusyBeyondCeilingFailsTheRead : Prop :=
  ∀ (s : State) (w : CmdWord) (rest : List CmdWord) (off : Offset) (moves : List EnvMove) (r : Reply),
    s.rst = false → s.seq = .ready → cmdReady s = true → s.ctlEn = true → s.program = w :: rest →
    decodeCmd w = .ok (.readByte off) → s.cfg.classRows = defaultClassRows →
    r = serve s.cfg.addr s.hidden s.mem → s.cfg.retryMax.val ≤ r.hidden.busy →
    s.script = List.replicate (2 * s.cfg.retryMax.val) .device ++ moves →
    ∃ t, Host.Core.run Sys2Proof.core (4 * s.cfg.retryMax.val + 3) s = .next t ∧
      t.rspValid = true ∧ t.rspData = 0xFF ∧ t.captured = false ∧ t.retryCnt = s.cfg.retryMax.val ∧ t.mem = r.mem ∧
      t.trace = (List.replicate s.cfg.retryMax.val [.start, .write (selW s.cfg.addr off)]).flatten ++ [.stop] ∧
      t.rst = false ∧ t.seq = .ready ∧ cmdReady t = true ∧ t.ctlEn = true ∧ t.cfg = s.cfg ∧ t.program = rest ∧
      t.script = moves ∧ t.hidden.requests = [0x300] ∧
      (serve t.cfg.addr t.hidden t.mem).hidden.busy = r.hidden.busy - s.cfg.retryMax.val

/-- With the chosen device oracle, not write-protected and busy for fewer selections than `RETRY_MAX`, `INVALIDATE` leaves
`0xFF` at offsets 0 to 7 and every other byte as it was, and sends the frame of 30_encoding.md R65 (20_memory.md R42,
95_test_vectors.md X7); its `STOP` then leaves the device busy for its write time (20_memory.md R52).  Busy time and memory
are those once the primitives still outstanding have been performed (`serve`).  The oracle is the model's (assumption
log 10). -/
def Obligations.InvalidateErasesTheBlock : Prop :=
  ∀ (s : State) (w : CmdWord) (rest : List CmdWord) (moves : List EnvMove) (r : Reply),
    s.rst = false → s.seq = .ready → cmdReady s = true → s.ctlEn = true → s.program = w :: rest →
    decodeCmd w = .ok .invalidate → s.cfg.classRows = defaultClassRows →
    r = serve s.cfg.addr s.hidden s.mem → r.hidden.busy < s.cfg.retryMax.val →
    s.hidden.writeProtected = false → Memory.wf s.mem = true →
    s.script = List.replicate (2 * r.hidden.busy + 10 + addrBytes s.cfg.addr) .device ++ moves →
    ∃ t, Host.Core.run Sys2Proof.core (2 * (2 * r.hidden.busy + 10 + addrBytes s.cfg.addr) + 3) s = .next t ∧
      t.rspValid = true ∧ t.fillCnt = 8 ∧ t.retryCnt = r.hidden.busy ∧ Memory.wf t.mem = true ∧
      (∀ a, a < 8 → Memory.read t.mem a = 0xFF) ∧ (∀ a, 8 ≤ a → Memory.read t.mem a = Memory.read r.mem a) ∧
      t.trace = (List.replicate r.hidden.busy [.start, .write (selW s.cfg.addr 0)]).flatten ++
        [.start, .write (devClassAddr s.cfg.addr)] ++ List.replicate (addrBytes s.cfg.addr) (.write 0) ++
        List.replicate 8 (.write 0xFF) ++ [.stop] ∧
      t.rst = false ∧ t.seq = .ready ∧ cmdReady t = true ∧ t.ctlEn = true ∧ t.cfg = s.cfg ∧ t.program = rest ∧
      t.script = moves ∧ t.hidden.requests = [0x300] ∧ t.hidden.writeProtected = false ∧
      (serve t.cfg.addr t.hidden t.mem).hidden.busy = s.hidden.writeTime
end

