-- ==== Sys2Proof/Laws/Device.lean ====
section
/-! SUPPORT. What the chosen device makes of one more primitive, and what no primitive changes. -/

namespace Sys2Proof.Machine

/-- One more primitive handed over is performed after the ones before it. -/
theorem serve_handed_over (a : AddrCfg) (h : Hidden) (m : Memory) (w : PrimWord) :
    serve a { h with requests := h.requests ++ [w] } m = servePrim a w (serve a h m) := by
  simp [serve, List.foldl_append]

/-- What every primitive leaves as it was: the properties of the device, and what is outstanding. -/
structure SameDevice (r r' : Reply) : Prop where
  requests       : r'.hidden.requests = r.hidden.requests
  writeTime      : r'.hidden.writeTime = r.hidden.writeTime
  writeProtected : r'.hidden.writeProtected = r.hidden.writeProtected

theorem serveSelect_same (a : AddrCfg) (b : Byte) (r : Reply) : SameDevice r (serveSelect a b r) := by
  unfold serveSelect
  split
  · split <;> exact ⟨rfl, rfl, rfl⟩
  · exact ⟨rfl, rfl, rfl⟩

theorem serveByte_same (a : AddrCfg) (n : Nat) (b : Byte) (r : Reply) : SameDevice r (serveByte a n b r) := by
  unfold serveByte
  split
  · exact ⟨rfl, rfl, rfl⟩
  · split <;> exact ⟨rfl, rfl, rfl⟩

theorem serveTx_same (a : AddrCfg) (b : Byte) (r : Reply) : SameDevice r (serveTx a b r) := by
  unfold serveTx
  split
  · exact serveSelect_same a b r
  · exact serveByte_same a _ b r
  all_goals exact ⟨rfl, rfl, rfl⟩

theorem serveRx_same (a : AddrCfg) (r : Reply) : SameDevice r (serveRx a r) := by
  unfold serveRx
  split <;> exact ⟨rfl, rfl, rfl⟩

theorem servePrim_same (a : AddrCfg) (w : PrimWord) (r : Reply) :
    SameDevice r (servePrim a w r) ∧ (servePrim a w r).done = true := by
  unfold servePrim
  split
  · exact ⟨⟨rfl, rfl, rfl⟩, rfl⟩
  · rename_i b _
    have h := serveTx_same a b { r with done := true }
    refine ⟨⟨h.requests, h.writeTime, h.writeProtected⟩, ?_⟩
    unfold serveTx serveSelect serveByte
    repeat' split
    all_goals rfl
  · have h := serveRx_same a { r with done := true }
    refine ⟨⟨h.requests, h.writeTime, h.writeProtected⟩, ?_⟩
    unfold serveRx
    split <;> rfl
  · exact ⟨⟨rfl, rfl, rfl⟩, rfl⟩

/-- Nothing is outstanding after the device has answered, and the device's properties stay. -/
theorem serve_same (a : AddrCfg) (h : Hidden) (m : Memory) :
    (serve a h m).hidden.requests = [] ∧ (serve a h m).hidden.writeTime = h.writeTime ∧
    (serve a h m).hidden.writeProtected = h.writeProtected := by
  have key : ∀ (ws : List PrimWord) (r : Reply), SameDevice r (ws.foldl (fun r w => servePrim a w r) r) := by
    intro ws
    induction ws with
    | nil => exact fun r => ⟨rfl, rfl, rfl⟩
    | cons w ws ih =>
      intro r
      have h1 := (servePrim_same a w r).1
      have h2 := ih (servePrim a w r)
      exact ⟨h2.requests.trans h1.requests, h2.writeTime.trans h1.writeTime,
        h2.writeProtected.trans h1.writeProtected⟩
  have hk := key h.requests { hidden := { h with requests := [] }, mem := m, done := false, status := 0, data := 0 }
  exact ⟨hk.requests, hk.writeTime, hk.writeProtected⟩

end Sys2Proof.Machine
end

