-- ==== Sys2Proof/Laws/Memory.lean ====
section
/-! SUPPORT. The device's memory: a read after a write, and the canonical form kept by every operation. -/

namespace Sys2Proof.Machine

theorem Memory.wfFrom_cons {lo a : Nat} {b : Byte} {m : Memory} :
    Memory.wfFrom lo ((a, b) :: m) = true ↔
      lo ≤ a ∧ a < 65536 ∧ b ≠ Memory.unlisted ∧ Memory.wfFrom (a + 1) m = true := by
  simp [Memory.wfFrom, and_assoc]

theorem Memory.wfFrom_mono {lo lo' : Nat} {m : Memory} (h : lo' ≤ lo) (hm : Memory.wfFrom lo m = true) :
    Memory.wfFrom lo' m = true := by
  cases m with
  | nil => rfl
  | cons c m =>
    obtain ⟨a, b⟩ := c
    rw [Memory.wfFrom_cons] at hm ⊢
    exact ⟨by omega, hm.2⟩

/-- Below its first entry a canonical memory lists nothing. -/
theorem Memory.read_below {lo x : Nat} {m : Memory} (hm : Memory.wfFrom lo m = true) (h : x < lo) :
    Memory.read m x = Memory.unlisted := by
  induction m generalizing lo with
  | nil => rfl
  | cons c m ih =>
    obtain ⟨a, b⟩ := c
    rw [Memory.wfFrom_cons] at hm
    simp only [Memory.read]
    rw [if_neg (by omega)]
    exact ih hm.2.2.2 (by omega)

theorem Memory.wfFrom_erase {lo x : Nat} {m : Memory} (hm : Memory.wfFrom lo m = true) :
    Memory.wfFrom lo (Memory.erase m x) = true := by
  induction m generalizing lo with
  | nil => rfl
  | cons c m ih =>
    obtain ⟨a, b⟩ := c
    rw [Memory.wfFrom_cons] at hm
    simp only [Memory.erase]
    split
    · exact Memory.wfFrom_mono (by omega) hm.2.2.2
    · rw [Memory.wfFrom_cons]
      exact ⟨hm.1, hm.2.1, hm.2.2.1, ih hm.2.2.2⟩

theorem Memory.read_erase {lo x y : Nat} {m : Memory} (hm : Memory.wfFrom lo m = true) :
    Memory.read (Memory.erase m x) y = if y = x then Memory.unlisted else Memory.read m y := by
  induction m generalizing lo with
  | nil => simp [Memory.erase, Memory.read]
  | cons c m ih =>
    obtain ⟨a, b⟩ := c
    rw [Memory.wfFrom_cons] at hm
    simp only [Memory.erase]
    by_cases hax : a = x
    · rw [if_pos hax]
      by_cases hy : y = x
      · rw [if_pos hy, Memory.read_below hm.2.2.2 (by omega)]
      · rw [if_neg hy]
        simp only [Memory.read]
        rw [if_neg (by omega)]
    · rw [if_neg hax]
      simp only [Memory.read]
      rw [ih hm.2.2.2]
      by_cases hy : a = y
      · rw [if_pos hy, if_neg (by omega), if_pos hy]
      · rw [if_neg hy, if_neg hy]

theorem Memory.wfFrom_insert {lo x : Nat} {v : Byte} {m : Memory} (hm : Memory.wfFrom lo m = true) (hlo : lo ≤ x)
    (hx : x < 65536) (hv : v ≠ Memory.unlisted) : Memory.wfFrom lo (Memory.insert m x v) = true := by
  induction m generalizing lo with
  | nil => exact Memory.wfFrom_cons.mpr ⟨hlo, hx, hv, rfl⟩
  | cons c m ih =>
    obtain ⟨a, b⟩ := c
    have hc := Memory.wfFrom_cons.mp hm
    simp only [Memory.insert]
    split
    · exact Memory.wfFrom_cons.mpr ⟨hlo, hx, hv, Memory.wfFrom_cons.mpr ⟨by omega, hc.2⟩⟩
    · split
      · rename_i _ hxa
        subst hxa
        exact Memory.wfFrom_cons.mpr ⟨hlo, hx, hv, hc.2.2.2⟩
      · exact Memory.wfFrom_cons.mpr ⟨hc.1, hc.2.1, hc.2.2.1, ih hc.2.2.2 (by omega)⟩

theorem Memory.read_insert {x y : Nat} {v : Byte} {m : Memory} :
    Memory.read (Memory.insert m x v) y = if y = x then v else Memory.read m y := by
  induction m with
  | nil => simp only [Memory.insert, Memory.read, eq_comm]
  | cons c m ih =>
    obtain ⟨a, b⟩ := c
    simp only [Memory.insert]
    split
    · simp only [Memory.read, eq_comm]
    · split
      · rename_i _ hxa
        subst hxa
        simp only [Memory.read, eq_comm]
        split <;> rfl
      · simp only [Memory.read, ih]
        by_cases hay : a = y
        · rw [if_pos hay, if_pos hay, if_neg (by omega)]
        · rw [if_neg hay, if_neg hay]

/-- A write keeps the canonical form. -/
theorem Memory.wf_write {m : Memory} (x : Offset) (v : Byte) (hm : Memory.wf m = true) :
    Memory.wf (Memory.write m x v) = true := by
  unfold Memory.write
  split
  · exact Memory.wfFrom_erase hm
  · exact Memory.wfFrom_insert hm (Nat.zero_le _) x.isLt ‹_›

/-- A read after a write gives the byte written at its offset, and every other byte as it was. -/
theorem Memory.read_write {m : Memory} (x : Offset) (v : Byte) (y : Nat) (hm : Memory.wf m = true) :
    Memory.read (Memory.write m x v) y = if y = x.toNat then v else Memory.read m y := by
  unfold Memory.write
  split
  · rename_i hv
    rw [hv]
    exact Memory.read_erase hm
  · exact Memory.read_insert

/-- Bytes written one after another keep the canonical form. -/
theorem Memory.wf_writes {m : Memory} (ws : List (Offset × Byte)) (hm : Memory.wf m = true) :
    Memory.wf (Memory.writes m ws) = true := by
  unfold Memory.writes
  induction ws generalizing m with
  | nil => exact hm
  | cons w ws ih => exact ih (Memory.wf_write _ _ hm)

/-- What the chosen device oracle does to a primitive keeps the canonical form. -/
theorem wf_servePrim (a : AddrCfg) (w : PrimWord) (r : Reply) (h : Memory.wf r.mem = true) :
    Memory.wf (servePrim a w r).mem = true := by
  unfold servePrim
  split
  · exact h
  · unfold serveTx
    split
    · unfold serveSelect
      split
      · split <;> exact h
      · exact h
    · unfold serveByte
      split
      · exact h
      · split
        · exact h
        · exact Memory.wf_write _ _ h
    · exact h
    · exact h
  · unfold serveRx
    split <;> exact h
  · exact h

theorem wf_serve (a : AddrCfg) (h : Hidden) (m : Memory) (hm : Memory.wf m = true) :
    Memory.wf (serve a h m).mem = true := by
  unfold serve
  suffices H : ∀ (ws : List PrimWord) (r : Reply), Memory.wf r.mem = true →
      Memory.wf (ws.foldl (fun r w => servePrim a w r) r).mem = true from H _ _ hm
  intro ws
  induction ws with
  | nil => exact fun _ h => h
  | cons w ws ih => exact fun r h => ih _ (wf_servePrim a w r h)

/-- Every move of the environment keeps the canonical form. -/
theorem wf_envStep (s : State) (hm : Memory.wf s.mem = true) : Memory.wf (envStep s).mem = true := by
  unfold envStep applyMove
  split
  · exact Memory.wf_writes _ hm
  · exact wf_serve _ _ _ hm

end Sys2Proof.Machine
end

