-- ==== Sys2Proof/WellFormed.lean ====
section
/-! DEFINITION. What may be written down, and what is refused.

Every operand value of every instruction is legal (20_memory.md R45, 42_read_byte.md R122), so an instruction alone is
always well formed.  What can be ill formed is where an instruction stands (a primitive on the command port), a host
program (an operation before `INIT`) and a configuration (93_implementation_defined.md U13, U15, U16). -/

namespace Sys2Proof

/-- An instruction may stand where words of format `f` are read. -/
def Instr.wfIn (f : Format) (i : Instr) : Bool := i.format == f

/-- A host program is a list of commands (30_encoding.md R74) whose first is `INIT` (40_init.md R84,
70_reset_and_hazards.md R187). -/
def programWf : List Instr → Bool
  | [] => true
  | i :: rest => i == .init && rest.all (Instr.wfIn .cmd)

/-- A configuration as 00_scope.md R6 tabulates it, before its constraints are checked. -/
structure RawParams where
  retryMax     : Nat
  pollMax      : Nat
  fillSize     : Nat
  addrMode     : AddrMode
  devClassAddr : Byte
  fSys         : Nat
  fThreshold   : Nat
  divLow       : Nat
  diagEnable   : Bool
  diagRows     : List DiagRow
  classRows    : List ClassRow
  deriving DecidableEq, Repr, Inhabited

/-- Why a configuration is refused. -/
inductive ConfigError where
  /-- U16 -/
  | retryMaxZero
  /-- U16 -/
  | pollMaxZero
  /-- U15, 70_reset_and_hazards.md R198 -/
  | fillSizeNotPowerOfTwo
  /-- a power of two, but not this hardware's 8 (00_scope.md R6, 92_eei_decisions.md D25) -/
  | fillSizeNotEight
  /-- U13: bit 0 of `DEV_CLASS_ADDR` -/
  | classAddrDirectionBit
  /-- U13: bits 3:1 of `DEV_CLASS_ADDR` in `ADDR8F` -/
  | classAddrFoldedBits
  /-- `F_SYS` and `F_THRESHOLD` are positive (00_scope.md R6) -/
  | clockZero
  deriving DecidableEq, Repr, Inhabited

/-- The first constraint of 00_scope.md R6 that a configuration breaks, if any. -/
def RawParams.error (p : RawParams) : Option ConfigError :=
  if p.retryMax = 0 then some .retryMaxZero
  else if p.pollMax = 0 then some .pollMaxZero
  else if p.fillSize = 0 ∨ p.fillSize &&& (p.fillSize - 1) ≠ 0 then some .fillSizeNotPowerOfTwo
  else if p.fillSize ≠ 8 then some .fillSizeNotEight
  else if p.devClassAddr.getLsbD 0 then some .classAddrDirectionBit
  else if p.addrMode = .addr8f ∧ p.devClassAddr.extractLsb' 1 3 ≠ 0 then some .classAddrFoldedBits
  else if p.fSys = 0 ∨ p.fThreshold = 0 then some .clockZero
  else none

/-- The configuration checked: the parameters a machine can be built with, or the constraint it breaks. -/
def RawParams.check (p : RawParams) : Except ConfigError Params :=
  match p.error with
  | some e => .error e
  | none => .ok {
      retryMax := ⟨p.retryMax - 1⟩
      pollMax := ⟨p.pollMax - 1⟩
      addr := match p.addrMode with
        | .addr16 => .addr16 (p.devClassAddr.extractLsb' 1 7)
        | .addr8f => .addr8f (p.devClassAddr.extractLsb' 4 4)
      fSys := ⟨p.fSys - 1⟩
      fThreshold := ⟨p.fThreshold - 1⟩
      divLow := p.divLow
      diagEnable := p.diagEnable
      diagRows := p.diagRows
      classRows := p.classRows }

end Sys2Proof
end

