-- ==== Sys2Proof/Laws/PerInstr.lean ====
section
/-! SUPPORT. One fact of each instruction's encoding: its own word carries the `match` of its row of the opcode table under
the row's `mask`, in the row's format (30_encoding.md R61, R70). -/

namespace Sys2Proof.Laws.TableRow

/-- The columns `match` and `mask` of the opcode table, for a command. -/
def cmdMatch : Instr → CmdWord
  | .init => 0x10000
  | .readByte _ => 0x20000
  | .invalidate => 0x30000
  | .start => 0
  | .tx _ => 0
  | .rxNack => 0
  | .stop => 0

/-- The columns `match` and `mask` of the opcode table, for a primitive. -/
def primMatch : Instr → PrimWord
  | .init => 0
  | .readByte _ => 0
  | .invalidate => 0
  | .start => 0x000
  | .tx _ => 0x100
  | .rxNack => 0x200
  | .stop => 0x300

/-- The instruction's own word fits its row. -/
def Statement (i : Instr) : Prop :=
  match encode i with
  | .cmd w => i.wfIn .cmd = true ∧ w &&& 0x30000 = cmdMatch i
  | .prim w => i.wfIn .prim = true ∧ w &&& 0x300 = primMatch i

theorem cmd_row (o : BitVec 2) (d : Offset) : cmdWordOf o d &&& 0x30000 = o ++ 0#16 := by
  have h : (0x30000 : CmdWord) = 3#2 ++ 0#16 := by decide
  rw [h, cmdWordOf, BitVec.and_append, BitVec.and_zero]
  exact congrArg (· ++ 0#16) BitVec.and_allOnes

theorem prim_row (k : BitVec 2) (d : Byte) : primWordOf k d &&& 0x300 = k ++ 0#8 := by
  have h : (0x300 : PrimWord) = 3#2 ++ 0#8 := by decide
  rw [h, primWordOf, BitVec.and_append, BitVec.and_zero]
  exact congrArg (· ++ 0#8) BitVec.and_allOnes

theorem init : Statement .init := ⟨rfl, by decide⟩
theorem readByte (off : Offset) : Statement (.readByte off) := ⟨rfl, cmd_row 2#2 off⟩
theorem invalidate : Statement .invalidate := ⟨rfl, by decide⟩
theorem start : Statement .start := ⟨rfl, by decide⟩
theorem tx (b : Byte) : Statement (.tx b) := ⟨rfl, prim_row 1#2 b⟩
theorem rxNack : Statement .rxNack := ⟨rfl, by decide⟩
theorem stop : Statement .stop := ⟨rfl, by decide⟩

end Sys2Proof.Laws.TableRow
end

