-- ==== Sys2Proof/Laws/State.lean ====
section
/-! SUPPORT. What each update of the state does to each field: one lemma a field, so that no proof unfolds an update. -/

namespace Sys2Proof.Machine

/-! ### `emit` -/

@[simp] theorem emit_cfg (ch : Byte) (s : State) : (emit ch s).cfg = s.cfg := rfl
@[simp] theorem emit_op (ch : Byte) (s : State) : (emit ch s).op = s.op := rfl
@[simp] theorem emit_off (ch : Byte) (s : State) : (emit ch s).off = s.off := rfl
@[simp] theorem emit_result (ch : Byte) (s : State) : (emit ch s).result = s.result := rfl
@[simp] theorem emit_retryCnt (ch : Byte) (s : State) : (emit ch s).retryCnt = s.retryCnt := rfl
@[simp] theorem emit_pollCnt (ch : Byte) (s : State) : (emit ch s).pollCnt = s.pollCnt := rfl
@[simp] theorem emit_fillCnt (ch : Byte) (s : State) : (emit ch s).fillCnt = s.fillCnt := rfl
@[simp] theorem emit_phase (ch : Byte) (s : State) : (emit ch s).phase = s.phase := rfl
@[simp] theorem emit_seq (ch : Byte) (s : State) : (emit ch s).seq = s.seq := rfl
@[simp] theorem emit_captured (ch : Byte) (s : State) : (emit ch s).captured = s.captured := rfl
@[simp] theorem emit_started (ch : Byte) (s : State) : (emit ch s).started = s.started := rfl
@[simp] theorem emit_ctlDiv (ch : Byte) (s : State) : (emit ch s).ctlDiv = s.ctlDiv := rfl
@[simp] theorem emit_ctlEn (ch : Byte) (s : State) : (emit ch s).ctlEn = s.ctlEn := rfl
@[simp] theorem emit_ctlPrim (ch : Byte) (s : State) : (emit ch s).ctlPrim = s.ctlPrim := rfl
@[simp] theorem emit_ctlStrobe (ch : Byte) (s : State) : (emit ch s).ctlStrobe = s.ctlStrobe := rfl
@[simp] theorem emit_ctlData (ch : Byte) (s : State) : (emit ch s).ctlData = s.ctlData := rfl
@[simp] theorem emit_ctlDone (ch : Byte) (s : State) : (emit ch s).ctlDone = s.ctlDone := rfl
@[simp] theorem emit_ctlStatus (ch : Byte) (s : State) : (emit ch s).ctlStatus = s.ctlStatus := rfl
@[simp] theorem emit_lastStatus (ch : Byte) (s : State) : (emit ch s).lastStatus = s.lastStatus := rfl
@[simp] theorem emit_rst (ch : Byte) (s : State) : (emit ch s).rst = s.rst := rfl
@[simp] theorem emit_program (ch : Byte) (s : State) : (emit ch s).program = s.program := rfl
@[simp] theorem emit_rspValid (ch : Byte) (s : State) : (emit ch s).rspValid = s.rspValid := rfl
@[simp] theorem emit_rspData (ch : Byte) (s : State) : (emit ch s).rspData = s.rspData := rfl
@[simp] theorem emit_diagValid (ch : Byte) (s : State) : (emit ch s).diagValid = true := rfl
@[simp] theorem emit_diagChar (ch : Byte) (s : State) : (emit ch s).diagChar = ch := rfl
@[simp] theorem emit_hidden (ch : Byte) (s : State) : (emit ch s).hidden = s.hidden := rfl
@[simp] theorem emit_mem (ch : Byte) (s : State) : (emit ch s).mem = s.mem := rfl
@[simp] theorem emit_script (ch : Byte) (s : State) : (emit ch s).script = s.script := rfl
@[simp] theorem emit_received (ch : Byte) (s : State) : (emit ch s).received = s.received := rfl
@[simp] theorem emit_draws (ch : Byte) (s : State) : (emit ch s).draws = s.draws := rfl
@[simp] theorem emit_sink (ch : Byte) (s : State) : (emit ch s).sink = s.sink ++ [ch] := rfl
@[simp] theorem emit_trace (ch : Byte) (s : State) : (emit ch s).trace = s.trace := rfl
@[simp] theorem emit_errors (ch : Byte) (s : State) : (emit ch s).errors = s.errors := rfl

/-! ### `goto` -/

@[simp] theorem goto_cfg (q : Seq) (s : State) : (goto q s).cfg = s.cfg := rfl
@[simp] theorem goto_op (q : Seq) (s : State) : (goto q s).op = s.op := rfl
@[simp] theorem goto_off (q : Seq) (s : State) : (goto q s).off = s.off := rfl
@[simp] theorem goto_result (q : Seq) (s : State) : (goto q s).result = s.result := rfl
@[simp] theorem goto_retryCnt (q : Seq) (s : State) : (goto q s).retryCnt = s.retryCnt := rfl
@[simp] theorem goto_pollCnt (q : Seq) (s : State) : (goto q s).pollCnt = s.pollCnt := rfl
@[simp] theorem goto_fillCnt (q : Seq) (s : State) : (goto q s).fillCnt = s.fillCnt := rfl
@[simp] theorem goto_phase (q : Seq) (s : State) : (goto q s).phase = s.phase := rfl
@[simp] theorem goto_seq (q : Seq) (s : State) : (goto q s).seq = q := rfl
@[simp] theorem goto_captured (q : Seq) (s : State) : (goto q s).captured = s.captured := rfl
@[simp] theorem goto_started (q : Seq) (s : State) : (goto q s).started = s.started := rfl
@[simp] theorem goto_ctlDiv (q : Seq) (s : State) : (goto q s).ctlDiv = s.ctlDiv := rfl
@[simp] theorem goto_ctlEn (q : Seq) (s : State) : (goto q s).ctlEn = s.ctlEn := rfl
@[simp] theorem goto_ctlPrim (q : Seq) (s : State) : (goto q s).ctlPrim = s.ctlPrim := rfl
@[simp] theorem goto_ctlStrobe (q : Seq) (s : State) : (goto q s).ctlStrobe = s.ctlStrobe := rfl
@[simp] theorem goto_ctlData (q : Seq) (s : State) : (goto q s).ctlData = s.ctlData := rfl
@[simp] theorem goto_ctlDone (q : Seq) (s : State) : (goto q s).ctlDone = s.ctlDone := rfl
@[simp] theorem goto_ctlStatus (q : Seq) (s : State) : (goto q s).ctlStatus = s.ctlStatus := rfl
@[simp] theorem goto_lastStatus (q : Seq) (s : State) : (goto q s).lastStatus = s.lastStatus := rfl
@[simp] theorem goto_rst (q : Seq) (s : State) : (goto q s).rst = s.rst := rfl
@[simp] theorem goto_program (q : Seq) (s : State) : (goto q s).program = s.program := rfl
@[simp] theorem goto_rspValid (q : Seq) (s : State) : (goto q s).rspValid = s.rspValid := rfl
@[simp] theorem goto_rspData (q : Seq) (s : State) : (goto q s).rspData = s.rspData := rfl
@[simp] theorem goto_diagValid (q : Seq) (s : State) : (goto q s).diagValid = s.diagValid := rfl
@[simp] theorem goto_diagChar (q : Seq) (s : State) : (goto q s).diagChar = s.diagChar := rfl
@[simp] theorem goto_hidden (q : Seq) (s : State) : (goto q s).hidden = s.hidden := rfl
@[simp] theorem goto_mem (q : Seq) (s : State) : (goto q s).mem = s.mem := rfl
@[simp] theorem goto_script (q : Seq) (s : State) : (goto q s).script = s.script := rfl
@[simp] theorem goto_received (q : Seq) (s : State) : (goto q s).received = s.received := rfl
@[simp] theorem goto_draws (q : Seq) (s : State) : (goto q s).draws = s.draws := rfl
@[simp] theorem goto_sink (q : Seq) (s : State) : (goto q s).sink = s.sink := rfl
@[simp] theorem goto_trace (q : Seq) (s : State) : (goto q s).trace = s.trace := rfl
@[simp] theorem goto_errors (q : Seq) (s : State) : (goto q s).errors = s.errors := rfl

/-! ### `forget` -/

@[simp] theorem forget_cfg (s : State) : (forget s).cfg = s.cfg := rfl
@[simp] theorem forget_op (s : State) : (forget s).op = s.op := rfl
@[simp] theorem forget_off (s : State) : (forget s).off = s.off := rfl
@[simp] theorem forget_result (s : State) : (forget s).result = s.result := rfl
@[simp] theorem forget_retryCnt (s : State) : (forget s).retryCnt = s.retryCnt := rfl
@[simp] theorem forget_pollCnt (s : State) : (forget s).pollCnt = s.pollCnt := rfl
@[simp] theorem forget_fillCnt (s : State) : (forget s).fillCnt = s.fillCnt := rfl
@[simp] theorem forget_phase (s : State) : (forget s).phase = s.phase := rfl
@[simp] theorem forget_seq (s : State) : (forget s).seq = s.seq := rfl
@[simp] theorem forget_captured (s : State) : (forget s).captured = s.captured := rfl
@[simp] theorem forget_started (s : State) : (forget s).started = s.started := rfl
@[simp] theorem forget_ctlDiv (s : State) : (forget s).ctlDiv = s.ctlDiv := rfl
@[simp] theorem forget_ctlEn (s : State) : (forget s).ctlEn = s.ctlEn := rfl
@[simp] theorem forget_ctlPrim (s : State) : (forget s).ctlPrim = s.ctlPrim := rfl
@[simp] theorem forget_ctlStrobe (s : State) : (forget s).ctlStrobe = s.ctlStrobe := rfl
@[simp] theorem forget_ctlData (s : State) : (forget s).ctlData = if s.received then Config.freeByte (s.draws + 1) else s.ctlData := rfl
@[simp] theorem forget_ctlDone (s : State) : (forget s).ctlDone = s.ctlDone := rfl
@[simp] theorem forget_ctlStatus (s : State) : (forget s).ctlStatus = Config.freeByte s.draws := rfl
@[simp] theorem forget_lastStatus (s : State) : (forget s).lastStatus = s.lastStatus := rfl
@[simp] theorem forget_rst (s : State) : (forget s).rst = s.rst := rfl
@[simp] theorem forget_program (s : State) : (forget s).program = s.program := rfl
@[simp] theorem forget_rspValid (s : State) : (forget s).rspValid = s.rspValid := rfl
@[simp] theorem forget_rspData (s : State) : (forget s).rspData = s.rspData := rfl
@[simp] theorem forget_diagValid (s : State) : (forget s).diagValid = s.diagValid := rfl
@[simp] theorem forget_diagChar (s : State) : (forget s).diagChar = s.diagChar := rfl
@[simp] theorem forget_hidden (s : State) : (forget s).hidden = s.hidden := rfl
@[simp] theorem forget_mem (s : State) : (forget s).mem = s.mem := rfl
@[simp] theorem forget_script (s : State) : (forget s).script = s.script := rfl
@[simp] theorem forget_received (s : State) : (forget s).received = s.received := rfl
@[simp] theorem forget_draws (s : State) : (forget s).draws = s.draws + 2 := rfl
@[simp] theorem forget_sink (s : State) : (forget s).sink = s.sink := rfl
@[simp] theorem forget_trace (s : State) : (forget s).trace = s.trace := rfl
@[simp] theorem forget_errors (s : State) : (forget s).errors = s.errors := rfl

/-! ### `beginStep` -/

@[simp] theorem beginStep_cfg (s : State) : (beginStep s).cfg = s.cfg := rfl
@[simp] theorem beginStep_op (s : State) : (beginStep s).op = s.op := rfl
@[simp] theorem beginStep_off (s : State) : (beginStep s).off = s.off := rfl
@[simp] theorem beginStep_result (s : State) : (beginStep s).result = s.result := rfl
@[simp] theorem beginStep_retryCnt (s : State) : (beginStep s).retryCnt = s.retryCnt := rfl
@[simp] theorem beginStep_pollCnt (s : State) : (beginStep s).pollCnt = s.pollCnt := rfl
@[simp] theorem beginStep_fillCnt (s : State) : (beginStep s).fillCnt = s.fillCnt := rfl
@[simp] theorem beginStep_phase (s : State) : (beginStep s).phase = s.phase := rfl
@[simp] theorem beginStep_seq (s : State) : (beginStep s).seq = s.seq := rfl
@[simp] theorem beginStep_captured (s : State) : (beginStep s).captured = s.captured := rfl
@[simp] theorem beginStep_started (s : State) : (beginStep s).started = s.started := rfl
@[simp] theorem beginStep_ctlDiv (s : State) : (beginStep s).ctlDiv = s.ctlDiv := rfl
@[simp] theorem beginStep_ctlEn (s : State) : (beginStep s).ctlEn = s.ctlEn := rfl
@[simp] theorem beginStep_ctlPrim (s : State) : (beginStep s).ctlPrim = s.ctlPrim := rfl
@[simp] theorem beginStep_ctlStrobe (s : State) : (beginStep s).ctlStrobe = false := rfl
@[simp] theorem beginStep_ctlData (s : State) : (beginStep s).ctlData = if s.received then Config.freeByte (s.draws + 1) else s.ctlData := rfl
@[simp] theorem beginStep_ctlDone (s : State) : (beginStep s).ctlDone = s.ctlDone := rfl
@[simp] theorem beginStep_ctlStatus (s : State) : (beginStep s).ctlStatus = Config.freeByte s.draws := rfl
@[simp] theorem beginStep_lastStatus (s : State) : (beginStep s).lastStatus = s.lastStatus := rfl
@[simp] theorem beginStep_rst (s : State) : (beginStep s).rst = s.rst := rfl
@[simp] theorem beginStep_program (s : State) : (beginStep s).program = s.program := rfl
@[simp] theorem beginStep_rspValid (s : State) : (beginStep s).rspValid = false := rfl
@[simp] theorem beginStep_rspData (s : State) : (beginStep s).rspData = Config.freeByte (s.draws + 2) := rfl
@[simp] theorem beginStep_diagValid (s : State) : (beginStep s).diagValid = false := rfl
@[simp] theorem beginStep_diagChar (s : State) : (beginStep s).diagChar = Config.freeByte (s.draws + 3) := rfl
@[simp] theorem beginStep_hidden (s : State) : (beginStep s).hidden = s.hidden := rfl
@[simp] theorem beginStep_mem (s : State) : (beginStep s).mem = s.mem := rfl
@[simp] theorem beginStep_script (s : State) : (beginStep s).script = s.script := rfl
@[simp] theorem beginStep_received (s : State) : (beginStep s).received = s.received := rfl
@[simp] theorem beginStep_draws (s : State) : (beginStep s).draws = s.draws + 4 := rfl
@[simp] theorem beginStep_sink (s : State) : (beginStep s).sink = s.sink := rfl
@[simp] theorem beginStep_trace (s : State) : (beginStep s).trace = s.trace := rfl
@[simp] theorem beginStep_errors (s : State) : (beginStep s).errors = s.errors := rfl

/-! ### `issue` -/

@[simp] theorem issue_cfg (w : PrimWord) (s : State) : (issue w s).cfg = s.cfg := rfl
@[simp] theorem issue_op (w : PrimWord) (s : State) : (issue w s).op = s.op := rfl
@[simp] theorem issue_off (w : PrimWord) (s : State) : (issue w s).off = s.off := rfl
@[simp] theorem issue_result (w : PrimWord) (s : State) : (issue w s).result = s.result := rfl
@[simp] theorem issue_retryCnt (w : PrimWord) (s : State) : (issue w s).retryCnt = s.retryCnt := rfl
@[simp] theorem issue_pollCnt (w : PrimWord) (s : State) : (issue w s).pollCnt = if PrimWord.kind w = 3#2 then s.pollCnt else 0 := rfl
@[simp] theorem issue_fillCnt (w : PrimWord) (s : State) : (issue w s).fillCnt = s.fillCnt := rfl
@[simp] theorem issue_phase (w : PrimWord) (s : State) : (issue w s).phase = s.phase := rfl
@[simp] theorem issue_seq (w : PrimWord) (s : State) : (issue w s).seq = s.seq := rfl
@[simp] theorem issue_captured (w : PrimWord) (s : State) : (issue w s).captured = s.captured := rfl
@[simp] theorem issue_started (w : PrimWord) (s : State) : (issue w s).started = s.started := rfl
@[simp] theorem issue_ctlDiv (w : PrimWord) (s : State) : (issue w s).ctlDiv = s.ctlDiv := rfl
@[simp] theorem issue_ctlEn (w : PrimWord) (s : State) : (issue w s).ctlEn = s.ctlEn := rfl
@[simp] theorem issue_ctlPrim (w : PrimWord) (s : State) : (issue w s).ctlPrim = PrimWord.kind w := rfl
@[simp] theorem issue_ctlStrobe (w : PrimWord) (s : State) : (issue w s).ctlStrobe = true := rfl
@[simp] theorem issue_ctlData (w : PrimWord) (s : State) : (issue w s).ctlData = if PrimWord.kind w = 1#2 then PrimWord.data w else s.ctlData := rfl
@[simp] theorem issue_ctlDone (w : PrimWord) (s : State) : (issue w s).ctlDone = false := rfl
@[simp] theorem issue_ctlStatus (w : PrimWord) (s : State) : (issue w s).ctlStatus = s.ctlStatus := rfl
@[simp] theorem issue_lastStatus (w : PrimWord) (s : State) : (issue w s).lastStatus = s.lastStatus := rfl
@[simp] theorem issue_rst (w : PrimWord) (s : State) : (issue w s).rst = s.rst := rfl
@[simp] theorem issue_program (w : PrimWord) (s : State) : (issue w s).program = s.program := rfl
@[simp] theorem issue_rspValid (w : PrimWord) (s : State) : (issue w s).rspValid = s.rspValid := rfl
@[simp] theorem issue_rspData (w : PrimWord) (s : State) : (issue w s).rspData = s.rspData := rfl
@[simp] theorem issue_diagValid (w : PrimWord) (s : State) : (issue w s).diagValid = s.diagValid := rfl
@[simp] theorem issue_diagChar (w : PrimWord) (s : State) : (issue w s).diagChar = s.diagChar := rfl
@[simp] theorem issue_hidden (w : PrimWord) (s : State) : (issue w s).hidden = { s.hidden with requests := s.hidden.requests ++ [w] } := rfl
@[simp] theorem issue_mem (w : PrimWord) (s : State) : (issue w s).mem = s.mem := rfl
@[simp] theorem issue_script (w : PrimWord) (s : State) : (issue w s).script = s.script := rfl
@[simp] theorem issue_received (w : PrimWord) (s : State) : (issue w s).received = if PrimWord.kind w = 1#2 then false else s.received := rfl
@[simp] theorem issue_draws (w : PrimWord) (s : State) : (issue w s).draws = s.draws := rfl
@[simp] theorem issue_sink (w : PrimWord) (s : State) : (issue w s).sink = s.sink := rfl
@[simp] theorem issue_trace (w : PrimWord) (s : State) : (issue w s).trace = s.trace ++ [busEvent w s.phase] := rfl
@[simp] theorem issue_errors (w : PrimWord) (s : State) : (issue w s).errors = s.errors := rfl

/-! ### `respond` -/

@[simp] theorem respond_cfg (s : State) : (respond s).cfg = s.cfg := rfl
@[simp] theorem respond_op (s : State) : (respond s).op = .none := rfl
@[simp] theorem respond_off (s : State) : (respond s).off = s.off := rfl
@[simp] theorem respond_result (s : State) : (respond s).result = s.result := rfl
@[simp] theorem respond_retryCnt (s : State) : (respond s).retryCnt = s.retryCnt := rfl
@[simp] theorem respond_pollCnt (s : State) : (respond s).pollCnt = s.pollCnt := rfl
@[simp] theorem respond_fillCnt (s : State) : (respond s).fillCnt = s.fillCnt := rfl
@[simp] theorem respond_phase (s : State) : (respond s).phase = .idle := rfl
@[simp] theorem respond_seq (s : State) : (respond s).seq = .ready := rfl
@[simp] theorem respond_captured (s : State) : (respond s).captured = s.captured := rfl
@[simp] theorem respond_started (s : State) : (respond s).started = s.started := rfl
@[simp] theorem respond_ctlDiv (s : State) : (respond s).ctlDiv = s.ctlDiv := rfl
@[simp] theorem respond_ctlEn (s : State) : (respond s).ctlEn = s.ctlEn := rfl
@[simp] theorem respond_ctlPrim (s : State) : (respond s).ctlPrim = s.ctlPrim := rfl
@[simp] theorem respond_ctlStrobe (s : State) : (respond s).ctlStrobe = s.ctlStrobe := rfl
@[simp] theorem respond_ctlData (s : State) : (respond s).ctlData = s.ctlData := rfl
@[simp] theorem respond_ctlDone (s : State) : (respond s).ctlDone = s.ctlDone := rfl
@[simp] theorem respond_ctlStatus (s : State) : (respond s).ctlStatus = s.ctlStatus := rfl
@[simp] theorem respond_lastStatus (s : State) : (respond s).lastStatus = s.lastStatus := rfl
@[simp] theorem respond_rst (s : State) : (respond s).rst = s.rst := rfl
@[simp] theorem respond_program (s : State) : (respond s).program = s.program := rfl
@[simp] theorem respond_rspValid (s : State) : (respond s).rspValid = true := rfl
@[simp] theorem respond_rspData (s : State) : (respond s).rspData = if s.op = .read then s.result else Config.freeByte s.draws := rfl
@[simp] theorem respond_diagValid (s : State) : (respond s).diagValid = s.diagValid := rfl
@[simp] theorem respond_diagChar (s : State) : (respond s).diagChar = s.diagChar := rfl
@[simp] theorem respond_hidden (s : State) : (respond s).hidden = s.hidden := rfl
@[simp] theorem respond_mem (s : State) : (respond s).mem = s.mem := rfl
@[simp] theorem respond_script (s : State) : (respond s).script = s.script := rfl
@[simp] theorem respond_received (s : State) : (respond s).received = s.received := rfl
@[simp] theorem respond_draws (s : State) : (respond s).draws = if s.op = .read then s.draws else s.draws + 1 := rfl
@[simp] theorem respond_sink (s : State) : (respond s).sink = s.sink := rfl
@[simp] theorem respond_trace (s : State) : (respond s).trace = s.trace := rfl
@[simp] theorem respond_errors (s : State) : (respond s).errors = s.errors := rfl

/-! ### `raise`, but for the diagnostic port -/

@[simp] theorem raise_cfg (e : ErrorClass) (i : ErrorInfo) (s : State) : (raise e i s).cfg = s.cfg := by
  unfold raise diag
  split <;> rfl
@[simp] theorem raise_op (e : ErrorClass) (i : ErrorInfo) (s : State) : (raise e i s).op = s.op := by
  unfold raise diag
  split <;> rfl
@[simp] theorem raise_off (e : ErrorClass) (i : ErrorInfo) (s : State) : (raise e i s).off = s.off := by
  unfold raise diag
  split <;> rfl
@[simp] theorem raise_result (e : ErrorClass) (i : ErrorInfo) (s : State) : (raise e i s).result = s.result := by
  unfold raise diag
  split <;> rfl
@[simp] theorem raise_retryCnt (e : ErrorClass) (i : ErrorInfo) (s : State) : (raise e i s).retryCnt = s.retryCnt := by
  unfold raise diag
  split <;> rfl
@[simp] theorem raise_pollCnt (e : ErrorClass) (i : ErrorInfo) (s : State) : (raise e i s).pollCnt = s.pollCnt := by
  unfold raise diag
  split <;> rfl
@[simp] theorem raise_fillCnt (e : ErrorClass) (i : ErrorInfo) (s : State) : (raise e i s).fillCnt = s.fillCnt := by
  unfold raise diag
  split <;> rfl
@[simp] theorem raise_phase (e : ErrorClass) (i : ErrorInfo) (s : State) : (raise e i s).phase = s.phase := by
  unfold raise diag
  split <;> rfl
@[simp] theorem raise_seq (e : ErrorClass) (i : ErrorInfo) (s : State) : (raise e i s).seq = s.seq := by
  unfold raise diag
  split <;> rfl
@[simp] theorem raise_captured (e : ErrorClass) (i : ErrorInfo) (s : State) : (raise e i s).captured = s.captured := by
  unfold raise diag
  split <;> rfl
@[simp] theorem raise_started (e : ErrorClass) (i : ErrorInfo) (s : State) : (raise e i s).started = s.started := by
  unfold raise diag
  split <;> rfl
@[simp] theorem raise_ctlDiv (e : ErrorClass) (i : ErrorInfo) (s : State) : (raise e i s).ctlDiv = s.ctlDiv := by
  unfold raise diag
  split <;> rfl
@[simp] theorem raise_ctlEn (e : ErrorClass) (i : ErrorInfo) (s : State) : (raise e i s).ctlEn = s.ctlEn := by
  unfold raise diag
  split <;> rfl
@[simp] theorem raise_ctlPrim (e : ErrorClass) (i : ErrorInfo) (s : State) : (raise e i s).ctlPrim = s.ctlPrim := by
  unfold raise diag
  split <;> rfl
@[simp] theorem raise_ctlStrobe (e : ErrorClass) (i : ErrorInfo) (s : State) : (raise e i s).ctlStrobe = s.ctlStrobe := by
  unfold raise diag
  split <;> rfl
@[simp] theorem raise_ctlData (e : ErrorClass) (i : ErrorInfo) (s : State) : (raise e i s).ctlData = s.ctlData := by
  unfold raise diag
  split <;> rfl
@[simp] theorem raise_ctlDone (e : ErrorClass) (i : ErrorInfo) (s : State) : (raise e i s).ctlDone = s.ctlDone := by
  unfold raise diag
  split <;> rfl
@[simp] theorem raise_ctlStatus (e : ErrorClass) (i : ErrorInfo) (s : State) : (raise e i s).ctlStatus = s.ctlStatus := by
  unfold raise diag
  split <;> rfl
@[simp] theorem raise_lastStatus (e : ErrorClass) (i : ErrorInfo) (s : State) : (raise e i s).lastStatus = s.lastStatus := by
  unfold raise diag
  split <;> rfl
@[simp] theorem raise_rst (e : ErrorClass) (i : ErrorInfo) (s : State) : (raise e i s).rst = s.rst := by
  unfold raise diag
  split <;> rfl
@[simp] theorem raise_program (e : ErrorClass) (i : ErrorInfo) (s : State) : (raise e i s).program = s.program := by
  unfold raise diag
  split <;> rfl
@[simp] theorem raise_rspValid (e : ErrorClass) (i : ErrorInfo) (s : State) : (raise e i s).rspValid = s.rspValid := by
  unfold raise diag
  split <;> rfl
@[simp] theorem raise_rspData (e : ErrorClass) (i : ErrorInfo) (s : State) : (raise e i s).rspData = s.rspData := by
  unfold raise diag
  split <;> rfl
@[simp] theorem raise_hidden (e : ErrorClass) (i : ErrorInfo) (s : State) : (raise e i s).hidden = s.hidden := by
  unfold raise diag
  split <;> rfl
@[simp] theorem raise_mem (e : ErrorClass) (i : ErrorInfo) (s : State) : (raise e i s).mem = s.mem := by
  unfold raise diag
  split <;> rfl
@[simp] theorem raise_script (e : ErrorClass) (i : ErrorInfo) (s : State) : (raise e i s).script = s.script := by
  unfold raise diag
  split <;> rfl
@[simp] theorem raise_received (e : ErrorClass) (i : ErrorInfo) (s : State) : (raise e i s).received = s.received := by
  unfold raise diag
  split <;> rfl
@[simp] theorem raise_draws (e : ErrorClass) (i : ErrorInfo) (s : State) : (raise e i s).draws = s.draws := by
  unfold raise diag
  split <;> rfl
@[simp] theorem raise_trace (e : ErrorClass) (i : ErrorInfo) (s : State) : (raise e i s).trace = s.trace := by
  unfold raise diag
  split <;> rfl
@[simp] theorem raise_errors (e : ErrorClass) (i : ErrorInfo) (s : State) : (raise e i s).errors = s.errors ++ [⟨e, i, s.phase⟩] := by
  unfold raise diag
  split <;> rfl

/-! ### `cached` -/

@[simp] theorem cached_cfg (s : State) : (cached s).cfg = s.cfg := rfl
@[simp] theorem cached_op (s : State) : (cached s).op = s.op := rfl
@[simp] theorem cached_off (s : State) : (cached s).off = s.off := rfl
@[simp] theorem cached_result (s : State) : (cached s).result = s.result := rfl
@[simp] theorem cached_retryCnt (s : State) : (cached s).retryCnt = s.retryCnt := rfl
@[simp] theorem cached_pollCnt (s : State) : (cached s).pollCnt = s.pollCnt := rfl
@[simp] theorem cached_fillCnt (s : State) : (cached s).fillCnt = s.fillCnt := rfl
@[simp] theorem cached_phase (s : State) : (cached s).phase = s.phase := rfl
@[simp] theorem cached_seq (s : State) : (cached s).seq = s.seq := rfl
@[simp] theorem cached_captured (s : State) : (cached s).captured = s.captured := rfl
@[simp] theorem cached_started (s : State) : (cached s).started = s.started := rfl
@[simp] theorem cached_ctlDiv (s : State) : (cached s).ctlDiv = s.ctlDiv := rfl
@[simp] theorem cached_ctlEn (s : State) : (cached s).ctlEn = s.ctlEn := rfl
@[simp] theorem cached_ctlPrim (s : State) : (cached s).ctlPrim = s.ctlPrim := rfl
@[simp] theorem cached_ctlStrobe (s : State) : (cached s).ctlStrobe = s.ctlStrobe := rfl
@[simp] theorem cached_ctlData (s : State) : (cached s).ctlData = if s.received then Config.freeByte (s.draws + 1) else s.ctlData := rfl
@[simp] theorem cached_ctlDone (s : State) : (cached s).ctlDone = s.ctlDone := rfl
@[simp] theorem cached_ctlStatus (s : State) : (cached s).ctlStatus = Config.freeByte s.draws := rfl
@[simp] theorem cached_lastStatus (s : State) : (cached s).lastStatus = s.ctlStatus := rfl
@[simp] theorem cached_rst (s : State) : (cached s).rst = s.rst := rfl
@[simp] theorem cached_program (s : State) : (cached s).program = s.program := rfl
@[simp] theorem cached_rspValid (s : State) : (cached s).rspValid = s.rspValid := rfl
@[simp] theorem cached_rspData (s : State) : (cached s).rspData = s.rspData := rfl
@[simp] theorem cached_diagValid (s : State) : (cached s).diagValid = s.diagValid := rfl
@[simp] theorem cached_diagChar (s : State) : (cached s).diagChar = s.diagChar := rfl
@[simp] theorem cached_hidden (s : State) : (cached s).hidden = s.hidden := rfl
@[simp] theorem cached_mem (s : State) : (cached s).mem = s.mem := rfl
@[simp] theorem cached_script (s : State) : (cached s).script = s.script := rfl
@[simp] theorem cached_received (s : State) : (cached s).received = s.received := rfl
@[simp] theorem cached_draws (s : State) : (cached s).draws = s.draws + 2 := rfl
@[simp] theorem cached_sink (s : State) : (cached s).sink = s.sink := rfl
@[simp] theorem cached_trace (s : State) : (cached s).trace = s.trace := rfl
@[simp] theorem cached_errors (s : State) : (cached s).errors = s.errors := rfl

/-! ### `counted` -/

@[simp] theorem counted_cfg (s : State) : (counted s).cfg = s.cfg := rfl
@[simp] theorem counted_op (s : State) : (counted s).op = s.op := rfl
@[simp] theorem counted_off (s : State) : (counted s).off = s.off := rfl
@[simp] theorem counted_result (s : State) : (counted s).result = s.result := rfl
@[simp] theorem counted_retryCnt (s : State) : (counted s).retryCnt = s.retryCnt := rfl
@[simp] theorem counted_pollCnt (s : State) : (counted s).pollCnt = s.pollCnt + 1 := rfl
@[simp] theorem counted_fillCnt (s : State) : (counted s).fillCnt = s.fillCnt := rfl
@[simp] theorem counted_phase (s : State) : (counted s).phase = s.phase := rfl
@[simp] theorem counted_seq (s : State) : (counted s).seq = s.seq := rfl
@[simp] theorem counted_captured (s : State) : (counted s).captured = s.captured := rfl
@[simp] theorem counted_started (s : State) : (counted s).started = s.started := rfl
@[simp] theorem counted_ctlDiv (s : State) : (counted s).ctlDiv = s.ctlDiv := rfl
@[simp] theorem counted_ctlEn (s : State) : (counted s).ctlEn = s.ctlEn := rfl
@[simp] theorem counted_ctlPrim (s : State) : (counted s).ctlPrim = s.ctlPrim := rfl
@[simp] theorem counted_ctlStrobe (s : State) : (counted s).ctlStrobe = s.ctlStrobe := rfl
@[simp] theorem counted_ctlData (s : State) : (counted s).ctlData = if s.received then Config.freeByte (s.draws + 1) else s.ctlData := rfl
@[simp] theorem counted_ctlDone (s : State) : (counted s).ctlDone = s.ctlDone := rfl
@[simp] theorem counted_ctlStatus (s : State) : (counted s).ctlStatus = Config.freeByte s.draws := rfl
@[simp] theorem counted_lastStatus (s : State) : (counted s).lastStatus = s.lastStatus := rfl
@[simp] theorem counted_rst (s : State) : (counted s).rst = s.rst := rfl
@[simp] theorem counted_program (s : State) : (counted s).program = s.program := rfl
@[simp] theorem counted_rspValid (s : State) : (counted s).rspValid = s.rspValid := rfl
@[simp] theorem counted_rspData (s : State) : (counted s).rspData = s.rspData := rfl
@[simp] theorem counted_diagValid (s : State) : (counted s).diagValid = s.diagValid := rfl
@[simp] theorem counted_diagChar (s : State) : (counted s).diagChar = s.diagChar := rfl
@[simp] theorem counted_hidden (s : State) : (counted s).hidden = s.hidden := rfl
@[simp] theorem counted_mem (s : State) : (counted s).mem = s.mem := rfl
@[simp] theorem counted_script (s : State) : (counted s).script = s.script := rfl
@[simp] theorem counted_received (s : State) : (counted s).received = s.received := rfl
@[simp] theorem counted_draws (s : State) : (counted s).draws = s.draws + 2 := rfl
@[simp] theorem counted_sink (s : State) : (counted s).sink = s.sink := rfl
@[simp] theorem counted_trace (s : State) : (counted s).trace = s.trace := rfl
@[simp] theorem counted_errors (s : State) : (counted s).errors = s.errors := rfl

/-! ### `capture` -/

@[simp] theorem capture_cfg (d : Byte) (s : State) : (capture d s).cfg = s.cfg := rfl
@[simp] theorem capture_op (d : Byte) (s : State) : (capture d s).op = s.op := rfl
@[simp] theorem capture_off (d : Byte) (s : State) : (capture d s).off = s.off := rfl
@[simp] theorem capture_result (d : Byte) (s : State) : (capture d s).result = d := rfl
@[simp] theorem capture_retryCnt (d : Byte) (s : State) : (capture d s).retryCnt = s.retryCnt := rfl
@[simp] theorem capture_pollCnt (d : Byte) (s : State) : (capture d s).pollCnt = s.pollCnt := rfl
@[simp] theorem capture_fillCnt (d : Byte) (s : State) : (capture d s).fillCnt = s.fillCnt := rfl
@[simp] theorem capture_phase (d : Byte) (s : State) : (capture d s).phase = s.phase := rfl
@[simp] theorem capture_seq (d : Byte) (s : State) : (capture d s).seq = s.seq := rfl
@[simp] theorem capture_captured (d : Byte) (s : State) : (capture d s).captured = true := rfl
@[simp] theorem capture_started (d : Byte) (s : State) : (capture d s).started = s.started := rfl
@[simp] theorem capture_ctlDiv (d : Byte) (s : State) : (capture d s).ctlDiv = s.ctlDiv := rfl
@[simp] theorem capture_ctlEn (d : Byte) (s : State) : (capture d s).ctlEn = s.ctlEn := rfl
@[simp] theorem capture_ctlPrim (d : Byte) (s : State) : (capture d s).ctlPrim = s.ctlPrim := rfl
@[simp] theorem capture_ctlStrobe (d : Byte) (s : State) : (capture d s).ctlStrobe = s.ctlStrobe := rfl
@[simp] theorem capture_ctlData (d : Byte) (s : State) : (capture d s).ctlData = s.ctlData := rfl
@[simp] theorem capture_ctlDone (d : Byte) (s : State) : (capture d s).ctlDone = s.ctlDone := rfl
@[simp] theorem capture_ctlStatus (d : Byte) (s : State) : (capture d s).ctlStatus = s.ctlStatus := rfl
@[simp] theorem capture_lastStatus (d : Byte) (s : State) : (capture d s).lastStatus = s.lastStatus := rfl
@[simp] theorem capture_rst (d : Byte) (s : State) : (capture d s).rst = s.rst := rfl
@[simp] theorem capture_program (d : Byte) (s : State) : (capture d s).program = s.program := rfl
@[simp] theorem capture_rspValid (d : Byte) (s : State) : (capture d s).rspValid = s.rspValid := rfl
@[simp] theorem capture_rspData (d : Byte) (s : State) : (capture d s).rspData = s.rspData := rfl
@[simp] theorem capture_diagValid (d : Byte) (s : State) : (capture d s).diagValid = s.diagValid := rfl
@[simp] theorem capture_diagChar (d : Byte) (s : State) : (capture d s).diagChar = s.diagChar := rfl
@[simp] theorem capture_hidden (d : Byte) (s : State) : (capture d s).hidden = s.hidden := rfl
@[simp] theorem capture_mem (d : Byte) (s : State) : (capture d s).mem = s.mem := rfl
@[simp] theorem capture_script (d : Byte) (s : State) : (capture d s).script = s.script := rfl
@[simp] theorem capture_received (d : Byte) (s : State) : (capture d s).received = s.received := rfl
@[simp] theorem capture_draws (d : Byte) (s : State) : (capture d s).draws = s.draws := rfl
@[simp] theorem capture_sink (d : Byte) (s : State) : (capture d s).sink = s.sink := rfl
@[simp] theorem capture_trace (d : Byte) (s : State) : (capture d s).trace = s.trace := rfl
@[simp] theorem capture_errors (d : Byte) (s : State) : (capture d s).errors = s.errors := rfl

/-! ### `countRetry` -/

@[simp] theorem countRetry_cfg (s : State) : (countRetry s).cfg = s.cfg := rfl
@[simp] theorem countRetry_op (s : State) : (countRetry s).op = s.op := rfl
@[simp] theorem countRetry_off (s : State) : (countRetry s).off = s.off := rfl
@[simp] theorem countRetry_result (s : State) : (countRetry s).result = s.result := rfl
@[simp] theorem countRetry_retryCnt (s : State) : (countRetry s).retryCnt = s.retryCnt + 1 := rfl
@[simp] theorem countRetry_pollCnt (s : State) : (countRetry s).pollCnt = s.pollCnt := rfl
@[simp] theorem countRetry_fillCnt (s : State) : (countRetry s).fillCnt = s.fillCnt := rfl
@[simp] theorem countRetry_phase (s : State) : (countRetry s).phase = s.phase := rfl
@[simp] theorem countRetry_seq (s : State) : (countRetry s).seq = s.seq := rfl
@[simp] theorem countRetry_captured (s : State) : (countRetry s).captured = s.captured := rfl
@[simp] theorem countRetry_started (s : State) : (countRetry s).started = s.started := rfl
@[simp] theorem countRetry_ctlDiv (s : State) : (countRetry s).ctlDiv = s.ctlDiv := rfl
@[simp] theorem countRetry_ctlEn (s : State) : (countRetry s).ctlEn = s.ctlEn := rfl
@[simp] theorem countRetry_ctlPrim (s : State) : (countRetry s).ctlPrim = s.ctlPrim := rfl
@[simp] theorem countRetry_ctlStrobe (s : State) : (countRetry s).ctlStrobe = s.ctlStrobe := rfl
@[simp] theorem countRetry_ctlData (s : State) : (countRetry s).ctlData = s.ctlData := rfl
@[simp] theorem countRetry_ctlDone (s : State) : (countRetry s).ctlDone = s.ctlDone := rfl
@[simp] theorem countRetry_ctlStatus (s : State) : (countRetry s).ctlStatus = s.ctlStatus := rfl
@[simp] theorem countRetry_lastStatus (s : State) : (countRetry s).lastStatus = s.lastStatus := rfl
@[simp] theorem countRetry_rst (s : State) : (countRetry s).rst = s.rst := rfl
@[simp] theorem countRetry_program (s : State) : (countRetry s).program = s.program := rfl
@[simp] theorem countRetry_rspValid (s : State) : (countRetry s).rspValid = s.rspValid := rfl
@[simp] theorem countRetry_rspData (s : State) : (countRetry s).rspData = s.rspData := rfl
@[simp] theorem countRetry_diagValid (s : State) : (countRetry s).diagValid = s.diagValid := rfl
@[simp] theorem countRetry_diagChar (s : State) : (countRetry s).diagChar = s.diagChar := rfl
@[simp] theorem countRetry_hidden (s : State) : (countRetry s).hidden = s.hidden := rfl
@[simp] theorem countRetry_mem (s : State) : (countRetry s).mem = s.mem := rfl
@[simp] theorem countRetry_script (s : State) : (countRetry s).script = s.script := rfl
@[simp] theorem countRetry_received (s : State) : (countRetry s).received = s.received := rfl
@[simp] theorem countRetry_draws (s : State) : (countRetry s).draws = s.draws := rfl
@[simp] theorem countRetry_sink (s : State) : (countRetry s).sink = s.sink := rfl
@[simp] theorem countRetry_trace (s : State) : (countRetry s).trace = s.trace := rfl
@[simp] theorem countRetry_errors (s : State) : (countRetry s).errors = s.errors := rfl

/-! ### The environment's move: the engine's own fields -/

@[simp] theorem envStep_cfg (s : State) : (envStep s).cfg = s.cfg := by
  unfold envStep applyMove
  split <;> rfl
@[simp] theorem envStep_op (s : State) : (envStep s).op = s.op := by
  unfold envStep applyMove
  split <;> rfl
@[simp] theorem envStep_off (s : State) : (envStep s).off = s.off := by
  unfold envStep applyMove
  split <;> rfl
@[simp] theorem envStep_result (s : State) : (envStep s).result = s.result := by
  unfold envStep applyMove
  split <;> rfl
@[simp] theorem envStep_retryCnt (s : State) : (envStep s).retryCnt = s.retryCnt := by
  unfold envStep applyMove
  split <;> rfl
@[simp] theorem envStep_pollCnt (s : State) : (envStep s).pollCnt = s.pollCnt := by
  unfold envStep applyMove
  split <;> rfl
@[simp] theorem envStep_fillCnt (s : State) : (envStep s).fillCnt = s.fillCnt := by
  unfold envStep applyMove
  split <;> rfl
@[simp] theorem envStep_phase (s : State) : (envStep s).phase = s.phase := by
  unfold envStep applyMove
  split <;> rfl
@[simp] theorem envStep_seq (s : State) : (envStep s).seq = s.seq := by
  unfold envStep applyMove
  split <;> rfl
@[simp] theorem envStep_captured (s : State) : (envStep s).captured = s.captured := by
  unfold envStep applyMove
  split <;> rfl
@[simp] theorem envStep_started (s : State) : (envStep s).started = s.started := by
  unfold envStep applyMove
  split <;> rfl
@[simp] theorem envStep_ctlDiv (s : State) : (envStep s).ctlDiv = s.ctlDiv := by
  unfold envStep applyMove
  split <;> rfl
@[simp] theorem envStep_ctlEn (s : State) : (envStep s).ctlEn = s.ctlEn := by
  unfold envStep applyMove
  split <;> rfl
@[simp] theorem envStep_ctlPrim (s : State) : (envStep s).ctlPrim = s.ctlPrim := by
  unfold envStep applyMove
  split <;> rfl
@[simp] theorem envStep_ctlStrobe (s : State) : (envStep s).ctlStrobe = s.ctlStrobe := by
  unfold envStep applyMove
  split <;> rfl
@[simp] theorem envStep_lastStatus (s : State) : (envStep s).lastStatus = s.lastStatus := by
  unfold envStep applyMove
  split <;> rfl
@[simp] theorem envStep_rst (s : State) : (envStep s).rst = s.rst := by
  unfold envStep applyMove
  split <;> rfl
@[simp] theorem envStep_program (s : State) : (envStep s).program = s.program := by
  unfold envStep applyMove
  split <;> rfl
@[simp] theorem envStep_rspValid (s : State) : (envStep s).rspValid = s.rspValid := by
  unfold envStep applyMove
  split <;> rfl
@[simp] theorem envStep_rspData (s : State) : (envStep s).rspData = s.rspData := by
  unfold envStep applyMove
  split <;> rfl
@[simp] theorem envStep_diagValid (s : State) : (envStep s).diagValid = s.diagValid := by
  unfold envStep applyMove
  split <;> rfl
@[simp] theorem envStep_diagChar (s : State) : (envStep s).diagChar = s.diagChar := by
  unfold envStep applyMove
  split <;> rfl
@[simp] theorem envStep_sink (s : State) : (envStep s).sink = s.sink := by
  unfold envStep applyMove
  split <;> rfl
@[simp] theorem envStep_trace (s : State) : (envStep s).trace = s.trace := by
  unfold envStep applyMove
  split <;> rfl
@[simp] theorem envStep_errors (s : State) : (envStep s).errors = s.errors := by
  unfold envStep applyMove
  split <;> rfl

/-- A move on the script is the one that takes effect. -/
theorem envStep_of_script {s : State} {m : EnvMove} {rest : List EnvMove} (h : s.script = m :: rest) :
    envStep s = applyMove m { s with script := rest } := by
  simp [envStep, nextMove, takeMove, h]

/-- The move taken leaves the rest of the script. -/
@[simp] theorem envStep_script (s : State) : (envStep s).script = s.script.tail := by
  unfold envStep applyMove
  split <;> rfl

end Sys2Proof.Machine
end

