-- ==== Sys2Proof/Laws/Step.lean ====
section
/-! SUPPORT. What one step can do, said once: the step by what the sequencer is about to do, the sample by what it sees, and
the branch by the step rule it follows. -/

namespace Sys2Proof.Machine

/-! ### Words -/

@[simp] theorem kind_primWordOf (k : BitVec 2) (d : Byte) : PrimWord.kind (primWordOf k d) = k := by
  ext i hi
  simp only [PrimWord.kind, primWordOf, BitVec.getElem_extractLsb']
  exact BitVec.getLsbD_append.trans (by simp [hi])

@[simp] theorem data_primWordOf (k : BitVec 2) (d : Byte) : PrimWord.data (primWordOf k d) = d := by
  ext i hi
  simp only [PrimWord.data, primWordOf, BitVec.getElem_extractLsb']
  exact BitVec.getLsbD_append.trans (by simp [hi])

@[simp] theorem opc_cmdWordOf (o : BitVec 2) (d : Offset) : CmdWord.opc (cmdWordOf o d) = o := by
  ext i hi
  simp only [CmdWord.opc, cmdWordOf, BitVec.getElem_extractLsb']
  exact BitVec.getLsbD_append.trans (by simp [hi])

@[simp] theorem offs_cmdWordOf (o : BitVec 2) (d : Offset) : CmdWord.offs (cmdWordOf o d) = d := by
  ext i hi
  simp only [CmdWord.offs, cmdWordOf, BitVec.getElem_extractLsb']
  exact BitVec.getLsbD_append.trans (by simp [hi])

@[simp] theorem decodePrim_start (d : Byte) : decodePrim (primWordOf 0#2 d) = .start := by simp [decodePrim]
@[simp] theorem decodePrim_tx (d : Byte) : decodePrim (primWordOf 1#2 d) = .tx d := by simp [decodePrim]
@[simp] theorem decodePrim_rxNack (d : Byte) : decodePrim (primWordOf 2#2 d) = .rxNack := by simp [decodePrim]
@[simp] theorem decodePrim_stop (d : Byte) : decodePrim (primWordOf 3#2 d) = .stop := by simp [decodePrim]

/-- Running the word a label issues is issuing that word. -/
theorem exec_primWord (a : AddrCfg) (off : Offset) (t : Target) (s : State) :
    exec (decodePrim (primWord a off t)) s = .next (issue (primWord a off t) s) := by
  cases t with
  | cleanup => simp [primWord, exec, execStop]
  | stage l => cases l <;> simp [primWord, exec, execStart, execTx, execRxNack]

/-- A command word reads as one of the three commands, or as the reserved code. -/
theorem decodeCmd_ok {w : CmdWord} {i : Instr} (h : decodeCmd w = .ok i) :
    i = .init ∨ i = .readByte (CmdWord.offs w) ∨ i = .invalidate := by
  unfold decodeCmd at h
  split at h <;> cases h <;> simp

/-! ### The step, by what the sequencer is about to do -/

theorem step_of_engine {s : State} (h : s.rst = false) : step s = engineStep (beginStep s) := by
  simp [step, h]

theorem step_of_issue {s : State} {t : Target} (h : s.rst = false) (hq : s.seq = .issue t) :
    step s = .next (issue (primWord s.cfg.addr s.off t)
      { beginStep s with phase := phaseOf t, seq := afterIssue t }) := by
  simp [step_of_engine h, engineStep, hq, issueStep, exec_primWord]

theorem step_of_respond {s : State} (h : s.rst = false) (hq : s.seq = .respond) :
    step s = .next (respond (beginStep s)) := by
  simp [step_of_engine h, engineStep, hq]

theorem step_of_poll {s : State} {l : Stage} (h : s.rst = false) (hq : s.seq = .poll l) :
    step s = sampled l (envStep (beginStep s)) := by
  simp [step_of_engine h, engineStep, hq, sampleStep]

theorem step_of_seesClass {s v : State} {l : Stage} {c : StatusClass} (h : SeesClass s l c v) :
    step s = branch l (.done c) v.ctlData (cached v) := by
  rw [step_of_poll h.no_reset h.polling, ← h.view]
  simp [sampled, h.done, completion, h.cls]

theorem step_of_seesTimeout {s v : State} {l : Stage} (h : SeesTimeout s l v) :
    step s = branch l .timeout v.ctlData (counted v) := by
  rw [step_of_poll h.no_reset h.polling, ← h.view]
  simp [sampled, h.empty, emptySample, h.last]

/-! ### A sample, by the running operation -/

theorem op_of_samples {s v : State} {l : Stage} (h : Samples s l v) : v.op = s.op := by
  rw [h.view]
  simp

theorem step_of_read_class {s v t : State} {l : Stage} {c : StatusClass} (h : SeesClass s l c v) (ho : s.op = .read)
    (hb : readBranch l (.done c) v.ctlData (cached v) = some t) : step s = .next t := by
  rw [step_of_seesClass h]
  simp [branch, branchOf, op_of_samples h.toSamples, ho, hb]

theorem step_of_inval_class {s v t : State} {l : Stage} {c : StatusClass} (h : SeesClass s l c v) (ho : s.op = .inval)
    (hb : invalBranch l (.done c) (cached v) = some t) : step s = .next t := by
  rw [step_of_seesClass h]
  simp [branch, branchOf, op_of_samples h.toSamples, ho, hb]

theorem step_of_read_timeout {s v t : State} {l : Stage} (h : SeesTimeout s l v) (ho : s.op = .read)
    (hb : readBranch l .timeout v.ctlData (counted v) = some t) : step s = .next t := by
  rw [step_of_seesTimeout h]
  simp [branch, branchOf, op_of_samples h.toSamples, ho, hb]

theorem step_of_inval_timeout {s v t : State} {l : Stage} (h : SeesTimeout s l v) (ho : s.op = .inval)
    (hb : invalBranch l .timeout (counted v) = some t) : step s = .next t := by
  rw [step_of_seesTimeout h]
  simp [branch, branchOf, op_of_samples h.toSamples, ho, hb]

/-- Everything a step that answers a next state can have done. -/
theorem step_cases {s t : State} (h : step s = .next t) :
    (s.rst = true ∧ operating s = false ∧ t = resetBlock s) ∨
    (s.rst = false ∧ s.seq = .ready ∧ t = beginStep s) ∨
    (s.rst = false ∧ s.seq = .ready ∧ cmdReady s = true ∧ ∃ rest i,
      (i = .init ∨ (∃ off, i = .readByte off) ∨ i = .invalidate) ∧
      exec i { beginStep s with program := rest } = .next t) ∨
    (s.rst = false ∧ ∃ q, s.seq = .issue q ∧ t = issue (primWord s.cfg.addr s.off q)
      { beginStep s with phase := phaseOf q, seq := afterIssue q }) ∨
    (s.rst = false ∧ ∃ l, s.seq = .poll l ∧ sampled l (envStep (beginStep s)) = .next t) ∨
    (s.rst = false ∧ s.seq = .respond ∧ t = respond (beginStep s)) := by
  cases hr : s.rst with
  | true =>
    simp only [step, hr, if_true, resetStep] at h
    split at h
    · cases h
    · exact .inl ⟨rfl, by simpa using ‹¬ operating s = true›, by simpa using h.symm⟩
  | false =>
    cases hq : s.seq with
    | ready =>
      simp only [step_of_engine hr, engineStep, beginStep_seq, hq] at h
      unfold acceptStep at h
      split at h
      · exact .inr (.inl ⟨rfl, rfl, by simpa using h.symm⟩)
      · split at h
        · rename_i w rest _ hc
          split at h
          · rename_i i hd
            refine .inr (.inr (.inl ⟨rfl, rfl, by simpa [cmdReady] using hc, rest, i, ?_, h⟩))
            rcases decodeCmd_ok hd with hi | hi | hi
            · exact .inl hi
            · exact .inr (.inl ⟨_, hi⟩)
            · exact .inr (.inr hi)
          · cases h
        · exact .inr (.inl ⟨rfl, rfl, by simpa using h.symm⟩)
    | issue q =>
      rw [step_of_issue hr hq] at h
      cases h
      exact .inr (.inr (.inr (.inl ⟨rfl, q, rfl, rfl⟩)))
    | poll l =>
      rw [step_of_poll hr hq] at h
      exact .inr (.inr (.inr (.inr (.inl ⟨rfl, l, rfl, h⟩))))
    | respond =>
      rw [step_of_respond hr hq] at h
      cases h
      exact .inr (.inr (.inr (.inr (.inr ⟨rfl, rfl, rfl⟩))))

/-- Everything a sample that answers a next state can have done. -/
theorem sampled_cases {l : Stage} {v t : State} (h : sampled l v = .next t) :
    (v.ctlDone = true ∧ branchOf l (.done (classify v.cfg.classRows (kindOf l) v.ctlStatus)) v.ctlData (cached v) = some t) ∨
    (v.ctlDone = false ∧ v.pollCnt + 1 = v.cfg.pollMax.val ∧ branchOf l .timeout v.ctlData (counted v) = some t) ∨
    (v.ctlDone = false ∧ v.pollCnt + 1 ≠ v.cfg.pollMax.val ∧ t = counted v) := by
  have hb : ∀ {r : PhaseResult} {d : Byte} {u : State}, branch l r d u = .next t → branchOf l r d u = some t := by
    intro r d u hu
    unfold branch at hu
    split at hu
    · cases hu; assumption
    · cases hu
  unfold sampled at h
  split at h
  · exact .inl ⟨‹_›, hb h⟩
  · unfold emptySample at h
    split at h
    · exact .inr (.inl ⟨by simp_all, ‹_›, hb h⟩)
    · exact .inr (.inr ⟨by simp_all, ‹_›, by simpa using h.symm⟩)

/-! ### The branch, by the step rule -/

/-- The branches of the step rules of 42_read_byte.md and 43_invalidate.md, as a relation: byte at the sample, stage, result,
state before and after. -/
inductive Branches (d : Byte) : Stage → PhaseResult → State → State → Prop where
  | confirmed {s} : Branches d .s1 (.done .success) s (goto (toStage .s2) { s with started := true })
  | startTimeout {s} :
    Branches d .s1 .timeout s (raiseTo .startTimeout .plain (if s.started then toCleanup else toExitNoStop) s)
  | toHigh {s} : addrMode s.cfg.addr = .addr16 → Branches d .s2 (.done .success) s (goto (toStage .s3) s)
  | toLow {s} : addrMode s.cfg.addr = .addr8f → Branches d .s2 (.done .success) s (goto (toStage .s4) s)
  | busy {s} : Branches d .s2 (.done .notReady) s (busyRetry s)
  | highSent {s} : Branches d .s3 (.done .success) s (goto (toStage .s4) s)
  | lowSent {s} : s.op = .read → Branches d .s4 (.done .success) s (goto (toStage .s5) s)
  | restarted {s} : Branches d .s5 (.done .success) s (goto (toStage .s6) s)
  | readSelected {s} : Branches d .s6 (.done .success) s (goto (toStage .s7) s)
  | refusedRead {s} : Branches d .s6 (.done .notReady) s (raiseTo .notReady .terminal toCleanup s)
  | captured {s} : s.op = .read → Branches d .s7 (.done .success) s (goto toCleanup (capture d s))
  | fillEntered {s} : s.op = .inval → Branches d .s4 (.done .success) s (enterFill s)
  | filled {s} : Branches d .vf (.done .success) s (fillNext s)
  | rejected {s l i} : Branches d l (.done .rejected) s (raiseTo .rejected i toCleanup s)
  | lost {s l} : l ≠ .s7 → Branches d l (.done .arbLost) s (restart s)
  | unanticipated {s l c} : c ≠ .success → Branches d l (.done c) s (protocolError s)
  | timedOut {s l} : l ≠ .s1 → Branches d l .timeout s (phaseTimeout s)

theorem startBranch_branches (d : Byte) (r : PhaseResult) (s : State) : Branches d .s1 r s (startBranch r s) := by
  cases r with
  | timeout => exact .startTimeout
  | done c => cases c <;> constructor <;> decide

theorem selectBranch_branches (d : Byte) (r : PhaseResult) (s : State) : Branches d .s2 r s (selectBranch r s) := by
  cases r with
  | timeout => exact .timedOut (by decide)
  | done c =>
    cases c
    case success =>
      simp only [selectBranch]
      split <;> constructor <;> assumption
    all_goals constructor <;> decide

/-- A branch taken is one the step rules give, of a stage the running operation has. -/
theorem branchOf_branches {l : Stage} {r : PhaseResult} {d : Byte} {s t : State} (h : branchOf l r d s = some t) :
    Branches d l r s t ∧ transacting s = true := by
  unfold branchOf at h
  split at h
  · rename_i hop
    refine ⟨?_, by simp [transacting, hop]⟩
    cases l <;> simp only [readBranch, Option.some.injEq, reduceCtorEq] at h <;> subst h
    · exact startBranch_branches d r s
    · exact selectBranch_branches d r s
    all_goals
      cases r with
      | timeout => exact .timedOut (by decide)
      | done c => cases c <;> constructor <;> first | assumption | decide
  · rename_i hop
    refine ⟨?_, by simp [transacting, hop]⟩
    cases l <;> simp only [invalBranch, Option.some.injEq, reduceCtorEq] at h <;> subst h
    · exact startBranch_branches d r s
    · exact selectBranch_branches d r s
    all_goals
      cases r with
      | timeout => exact .timedOut (by decide)
      | done c => cases c <;> constructor <;> first | assumption | decide
  · cases h
  · cases h

/-- What a branch leaves as it was, and where it can lead. -/
structure Kept (l : Stage) (r : PhaseResult) (s t : State) : Prop where
  cfg        : t.cfg = s.cfg
  op         : t.op = s.op
  off        : t.off = s.off
  phase      : t.phase = s.phase
  pollCnt    : t.pollCnt = s.pollCnt
  ctl        : t.ctlDiv = s.ctlDiv ∧ t.ctlEn = s.ctlEn ∧ t.ctlPrim = s.ctlPrim ∧ t.ctlStrobe = s.ctlStrobe ∧
    t.ctlData = s.ctlData ∧ t.ctlDone = s.ctlDone ∧ t.ctlStatus = s.ctlStatus
  lastStatus : t.lastStatus = s.lastStatus
  ports      : t.rst = s.rst ∧ t.program = s.program ∧ t.rspValid = s.rspValid ∧ t.rspData = s.rspData
  outside    : t.hidden = s.hidden ∧ t.mem = s.mem ∧ t.script = s.script ∧ t.received = s.received ∧ t.draws = s.draws
  trace      : t.trace = s.trace
  result     : t.result = s.result ∨ (l = .s7 ∧ r = .done .success ∧ s.op = .read)
  captured   : t.captured = s.captured ∨ (l = .s7 ∧ r = .done .success ∧ s.op = .read)
  started    : t.started = s.started ∨ (l = .s1 ∧ r = .done .success ∧ t.started = true)
  retryCnt   : t.retryCnt = s.retryCnt ∨ (l = .s2 ∧ r = .done .notReady ∧ t.retryCnt = s.retryCnt + 1)
  fillCnt    : t.fillCnt = s.fillCnt ∨ (s.op = .inval ∧ l = .s4 ∧ t.fillCnt = 0) ∨ (l = .vf ∧ t.fillCnt = s.fillCnt + 1)
  not_ready  : t.seq ≠ .ready
  not_poll   : ∀ l', t.seq ≠ .poll l'
  no_stop    : t.seq = .respond → l = .s1 ∧ r = .timeout ∧ s.started = false

theorem branches_kept {d : Byte} {l : Stage} {r : PhaseResult} {s t : State} (h : Branches d l r s t) : Kept l r s t := by
  cases h
  case busy =>
    unfold busyRetry
    split <;> constructor <;> simp [raiseTo]
  case filled =>
    unfold fillNext
    constructor <;> simp <;> split <;> simp
  case startTimeout => constructor <;> simp [raiseTo] <;> split <;> simp_all
  all_goals constructor <;> simp [raiseTo, restart, protocolError, phaseTimeout, enterFill, *]

/-- Raising an error emits at most one character, and none without `DIAG_ENABLE`. -/
theorem raise_sink (e : ErrorClass) (i : ErrorInfo) (s : State) :
    ∃ more, (raise e i s).sink = s.sink ++ more ∧ more.length ≤ 1 ∧ (s.cfg.diagEnable = false → more = []) := by
  unfold raise diag
  split
  · rename_i ch h
    refine ⟨[ch], by simp, by simp, ?_⟩
    intro hd
    simp [diagOf, hd] at h
  · exact ⟨[], by simp⟩

/-- A stage the running operation has is branched on. -/
theorem branchOf_some {l : Stage} (r : PhaseResult) (d : Byte) {s : State} (h : hasStage s.cfg.addr s.op l = true) :
    ∃ t, branchOf l r d s = some t := by
  unfold branchOf
  cases hop : s.op <;> rw [hop] at h <;> cases l <;> simp_all [hasStage, readBranch, invalBranch]

end Sys2Proof.Machine
end

