-- ==== Sys2Proof/Laws/Tables.lean ====
section
/-! SUPPORT. The parameters `Classify` and `DiagCode` held as tables lose nothing: every function of their arguments is the
function of some table (00_scope.md R6, 41_primitives.md R100, 60_exceptions.md R172). -/

namespace Sys2Proof.Machine

theorem and_full (s : Byte) : s &&& 0xFF = s := BitVec.and_allOnes

/-- A table all of whose rows that fit agree on the class, and that has such a row, gives that class. -/
theorem classify_eq {rows : List ClassRow} {k : PhaseKind} {s : Byte} {c : StatusClass}
    (hall : ∀ row ∈ rows, row.kind = k ∧ s &&& row.mask = row.pattern → row.cls = c)
    (hex : ∃ row ∈ rows, row.kind = k ∧ s &&& row.mask = row.pattern) : classify rows k s = c := by
  induction rows with
  | nil =>
    obtain ⟨row, hr, _⟩ := hex
    cases hr
  | cons row rows ih =>
    simp only [classify]
    split
    · exact hall row (by simp) ‹_›
    · refine ih (fun r hr => hall r (by simp [hr])) ?_
      obtain ⟨r, hr, hfit⟩ := hex
      rcases List.mem_cons.mp hr with rfl | hr
      · contradiction
      · exact ⟨r, hr, hfit⟩

/-- The rows of one phase kind, one for each status. -/
def kindRows (f : PhaseKind → Byte → StatusClass) (k : PhaseKind) : List ClassRow :=
  (List.finRange 256).map fun n => ⟨k, 0xFF, BitVec.ofFin n, f k (BitVec.ofFin n)⟩

/-- The table of a function. -/
def classRowsOf (f : PhaseKind → Byte → StatusClass) : List ClassRow :=
  [.startK, .selWK, .selRK, .addrK, .fillK, .recvK].flatMap (kindRows f)

/-- Every function of phase kind and status is some table's `Classify`. -/
theorem classify_classRowsOf (f : PhaseKind → Byte → StatusClass) (k : PhaseKind) (s : Byte) :
    classify (classRowsOf f) k s = f k s := by
  apply classify_eq
  · intro row hrow hfit
    simp only [classRowsOf, kindRows, List.mem_flatMap, List.mem_map] at hrow
    obtain ⟨k', _, n, _, rfl⟩ := hrow
    obtain ⟨rfl, hs⟩ := hfit
    have hs' : s = BitVec.ofFin n := by rwa [and_full] at hs
    rw [hs']
  · refine ⟨⟨k, 0xFF, s, f k s⟩, ?_, rfl, and_full s⟩
    simp only [classRowsOf, kindRows, List.mem_flatMap, List.mem_map]
    exact ⟨k, by cases k <;> simp, s.toFin, List.mem_finRange _, rfl⟩

/-- A table none of whose rows fits gives no character. -/
theorem diagCode_none {rows : List DiagRow} {e : ErrorClass} {i : ErrorInfo} {p : Phase} {s : Byte}
    (h : ∀ row ∈ rows, ¬ (row.error = e ∧ row.info = i ∧ row.phase = p ∧ s &&& row.mask = row.pattern)) :
    diagCode rows e i p s = none := by
  induction rows with
  | nil => rfl
  | cons row rows ih =>
    simp only [diagCode]
    rw [if_neg (h row (by simp))]
    exact ih fun r hr => h r (by simp [hr])

/-- A table all of whose rows that fit agree on the character, and that has such a row, gives that character. -/
theorem diagCode_some {rows : List DiagRow} {e : ErrorClass} {i : ErrorInfo} {p : Phase} {s c : Byte}
    (hall : ∀ row ∈ rows, row.error = e ∧ row.info = i ∧ row.phase = p ∧ s &&& row.mask = row.pattern → row.char = c)
    (hex : ∃ row ∈ rows, row.error = e ∧ row.info = i ∧ row.phase = p ∧ s &&& row.mask = row.pattern) :
    diagCode rows e i p s = some c := by
  induction rows with
  | nil =>
    obtain ⟨row, hr, _⟩ := hex
    cases hr
  | cons row rows ih =>
    simp only [diagCode]
    split
    · exact congrArg some (hall row (by simp) ‹_›)
    · refine ih (fun r hr => hall r (by simp [hr])) ?_
      obtain ⟨r, hr, hfit⟩ := hex
      rcases List.mem_cons.mp hr with rfl | hr
      · contradiction
      · exact ⟨r, hr, hfit⟩

/-- The row for one status, if the function gives a character there. -/
def diagRowOf (f : ErrorClass → ErrorInfo → Phase → Byte → Option Byte) (e : ErrorClass) (i : ErrorInfo) (p : Phase)
    (s : Byte) : Option DiagRow :=
  (f e i p s).map fun c => ⟨e, i, p, 0xFF, s, c⟩

/-- The table of a function. -/
def diagRowsOf (f : ErrorClass → ErrorInfo → Phase → Byte → Option Byte) : List DiagRow :=
  [.startTimeout, .notReady, .retryExhausted, .arbLost, .rejected, .protocol, .phaseTimeout].flatMap fun e =>
    [.plain, .benign, .terminal].flatMap fun i =>
      [.idle, .startPending, .deviceSelected, .addressHighSent, .addressLowSent, .repeatedStartPending, .readSelected,
        .byteReceived, .writeAckReceived, .stopped].flatMap fun p =>
        (List.finRange 256).filterMap fun n => diagRowOf f e i p (BitVec.ofFin n)

theorem mem_diagRowsOf {f : ErrorClass → ErrorInfo → Phase → Byte → Option Byte} {row : DiagRow} :
    row ∈ diagRowsOf f ↔ ∃ e i p s, diagRowOf f e i p s = some row := by
  simp only [diagRowsOf, List.mem_flatMap, List.mem_filterMap]
  constructor
  · rintro ⟨e, _, i, _, p, _, n, _, h⟩
    exact ⟨e, i, p, _, h⟩
  · rintro ⟨e, i, p, s, h⟩
    exact ⟨e, by cases e <;> simp, i, by cases i <;> simp, p, by cases p <;> simp, s.toFin, List.mem_finRange _, h⟩

/-- Every function of error, argument, phase and status is some table's `DiagCode`. -/
theorem diagCode_diagRowsOf (f : ErrorClass → ErrorInfo → Phase → Byte → Option Byte) (e : ErrorClass) (i : ErrorInfo)
    (p : Phase) (s : Byte) : diagCode (diagRowsOf f) e i p s = f e i p s := by
  have hfit : ∀ row ∈ diagRowsOf f, row.error = e ∧ row.info = i ∧ row.phase = p ∧ s &&& row.mask = row.pattern →
      f e i p s = some row.char := by
    intro row hrow hf
    obtain ⟨e', i', p', s', h⟩ := mem_diagRowsOf.mp hrow
    simp only [diagRowOf, Option.map_eq_some_iff] at h
    obtain ⟨c, hc, rfl⟩ := h
    obtain ⟨rfl, rfl, rfl, hs⟩ := hf
    have hs' : s = s' := by rwa [and_full] at hs
    rw [hs']
    exact hc
  cases hf : f e i p s with
  | none =>
    apply diagCode_none
    intro row hrow h
    simp [hfit row hrow h] at hf
  | some c =>
    apply diagCode_some
    · intro row hrow h
      simpa [hfit row hrow h] using hf
    · exact ⟨⟨e, i, p, 0xFF, s, c⟩, mem_diagRowsOf.mpr ⟨e, i, p, s, by simp [diagRowOf, hf]⟩, rfl, rfl, rfl, and_full s⟩

end Sys2Proof.Machine
end

