-- ==== Sys2Proof/Tests/Slice0.lean ====
section
/-! SUPPORT. Tests: what is refused as ill formed, words written out bit by bit, single steps against the vectors of
95_test_vectors.md (its ids are in the comments), and for every obligation a state that meets its hypotheses. -/

namespace Sys2Proof.Tests

open Sys2Proof Sys2Proof.Machine

/-! ### Ill-formed terms are refused (93_implementation_defined.md U13, U15, U16; 00_scope.md R6; 40_init.md R84) -/

/-- The sample parameters of 95_test_vectors.md section 0, unchecked. -/
def raw : RawParams :=
  { retryMax := 3, pollMax := 4, fillSize := 8, addrMode := .addr16, devClassAddr := 0xA0, fSys := 16000000,
    fThreshold := 3600000, divLow := 10, diagEnable := false, diagRows := [], classRows := defaultClassRows }

theorem test_wf_sample : raw.error = none := by decide
theorem test_wf_retry_zero : { raw with retryMax := 0 }.error = some .retryMaxZero := by decide
theorem test_wf_poll_zero : { raw with pollMax := 0 }.error = some .pollMaxZero := by decide
theorem test_wf_fill_twelve : { raw with fillSize := 12 }.error = some .fillSizeNotPowerOfTwo := by decide
theorem test_wf_fill_zero : { raw with fillSize := 0 }.error = some .fillSizeNotPowerOfTwo := by decide
theorem test_wf_fill_sixteen : { raw with fillSize := 16 }.error = some .fillSizeNotEight := by decide
theorem test_wf_direction_bit : { raw with devClassAddr := 0xA1 }.error = some .classAddrDirectionBit := by decide
theorem test_wf_folded_bits :
    { raw with addrMode := .addr8f, devClassAddr := 0xA2 }.error = some .classAddrFoldedBits := by decide
theorem test_wf_clock_zero : { raw with fSys := 0 }.error = some .clockZero := by decide
theorem test_wf_threshold_zero : { raw with fThreshold := 0 }.error = some .clockZero := by decide
theorem test_wf_primitive_on_port : Instr.wfIn .cmd (.tx 0xA0) = false := by decide
theorem test_wf_command_at_controller : Instr.wfIn .prim (.readByte 0) = false := by decide
theorem test_wf_program : programWf [.init, .invalidate, .readByte 0x0123] = true := by decide
theorem test_wf_program_no_init : programWf [.readByte 0] = false := by decide
theorem test_wf_program_primitive : programWf [.init, .stop] = false := by decide

/-! ### Decoding: words written out bit by bit (T1 to T9) -/

theorem test_decode_init : decodeCmd 0b01_0000000000000000 = .ok .init := rfl
theorem test_decode_init_ignores_offs : decodeCmd 0b01_1111111111111111 = .ok .init := rfl
theorem test_decode_readByte : decodeCmd 0b10_0000000100100011 = .ok (.readByte 0x0123) := rfl
theorem test_decode_readByte_last : decodeCmd 0b10_1111111111111111 = .ok (.readByte 0xFFFF) := rfl
theorem test_decode_invalidate : decodeCmd 0b11_0000000000000000 = .ok .invalidate := rfl
theorem test_decode_invalidate_ignores_offs : decodeCmd 0b11_1010101111001101 = .ok .invalidate := rfl
theorem test_decode_reserved : decodeCmd 0b00_1111111111111111 = .error .reservedCommand := rfl
theorem test_decode_start : decodePrim 0b00_00000000 = .start := by decide
theorem test_decode_tx : decodePrim 0b01_10100000 = .tx 0xA0 := by decide
theorem test_decode_rxNack : decodePrim 0b10_00000000 = .rxNack := by decide
theorem test_decode_stop : decodePrim 0b11_00000000 = .stop := by decide
theorem test_decode_bytes_padding : decodeBytes [0x23, 0x01, 0x06] = .error .paddingBits := rfl
theorem test_decode_bytes_length : decodeBytes [0x00] = .error .noWordOfThisLength := rfl
theorem test_encode_T3 : encode (.readByte 0x0123) = .cmd 0x20123 := by decide
theorem test_encode_T9 : encode (.tx 0xFF) = .prim 0x1FF := by decide
theorem test_table_readByte : decodeTableWord 24 0x20123 = some (.readByte 0x0123) := by decide
theorem test_table_stop : decodeTableWord 16 0x300 = some .stop := by decide

/-! ### Operand forms (T10a to T10f; `DEV_CLASS_ADDR = 0xA0` is `cls = 0x50` in `ADDR16`, `0xA` in `ADDR8F`) -/

theorem test_select_T10a : selW (.addr16 0x50) 0xABCD = 0xA0 ∧ selR (.addr16 0x50) 0xABCD = 0xA1 ∧
    addrHi 0xABCD = 0xAB ∧ addrLo 0xABCD = 0xCD := by decide
theorem test_select_T10b : selW (.addr16 0x53) 0x0700 = 0xA6 ∧ selR (.addr16 0x53) 0x0700 = 0xA7 := by decide
theorem test_select_T10c : selW (.addr8f 0xA) 0x02A5 = 0xA4 ∧ selR (.addr8f 0xA) 0x02A5 = 0xA5 ∧
    addrLo 0x02A5 = 0xA5 := by decide
theorem test_select_T10d : selW (.addr8f 0xA) 0x07FF = 0xAE ∧ selR (.addr8f 0xA) 0x07FF = 0xAF := by decide
theorem test_select_T10e : selW (.addr8f 0xA) 0x0800 = 0xA0 ∧ addrLo 0x0800 = 0x00 := by decide
theorem test_select_T10f : selW (.addr8f 0xA) 0xFAA5 = 0xA4 := by decide

-- the spec's numbers (10_state.md R11, R20; 60_exceptions.md R150)
theorem test_numbers : phaseCode .stopped = 9 ∧ phaseCode .writeAckReceived = 8 ∧ opCode .inval = 3 ∧
    errorNumber .phaseTimeout = 7 := by decide
theorem test_op_is_opc : opCode .read = CmdWord.opc 0x20123 ∧ opCode .init = CmdWord.opc 0x1FFFF := by decide

/-! ### The default `Classify` (T11) -/

theorem test_classify_T11b : classify defaultClassRows .startK 0x09 = .success := by decide
theorem test_classify_T11e : classify defaultClassRows .selWK 0x20 = .notReady ∧
    classify defaultClassRows .selWK 0x48 = .unexpected := by decide
theorem test_classify_T11i : classify defaultClassRows .selRK 0x48 = .notReady ∧
    classify defaultClassRows .selRK 0x20 = .unexpected := by decide
theorem test_classify_T11j : classify defaultClassRows .recvK 0x50 = .success ∧
    classify defaultClassRows .recvK 0x38 = .arbLost := by decide
theorem test_classify_T11k : classify defaultClassRows .fillK 0xF8 = .unexpected := by decide

/-! ### Small states -/

/-- The sample parameters: `RETRY_MAX = 3`, `POLL_MAX = 4`, `ADDR16`, `DEV_CLASS_ADDR = 0xA0`. -/
def sample : Params :=
  { retryMax := ⟨2⟩, pollMax := ⟨3⟩, addr := .addr16 0x50, fSys := ⟨999999⟩, fThreshold := ⟨3599999⟩, divLow := 10,
    diagEnable := false, diagRows := [], classRows := defaultClassRows }

theorem test_sample_checks : { raw with fSys := 1000000 }.check = .ok sample := rfl

/-- The sample parameters in `ADDR8F`. -/
def sample8 : Params := { sample with addr := .addr8f 0xA }

/-- After `INIT`, idle. -/
def idle : State := { State.reset with cfg := sample, ctlEn := true }

/-- An answer: done, with this status and data byte. -/
def answer (status data : Byte) : EnvMove := .oracle true status data State.reset.hidden []

/-- No answer: the phase does not complete. -/
def silent : EnvMove := .oracle false 0 0 State.reset.hidden []

/-- An operation about to issue a label's primitive, from a phase. -/
def issuing (o : Op) (t : Target) (p : Phase) : State :=
  { idle with
    op := o, off := if o = .inval then 0 else 0x0123, result := 0xFF, started := true, phase := p, seq := .issue t }

/-- An operation polling for a stage after `n` empty samples, with the environment's next move. -/
def polling (o : Op) (l : Stage) (n : Nat) (m : EnvMove) : State :=
  { idle with
    op := o, off := if o = .inval then 0 else 0x0123, result := 0xFF, started := true, phase := phaseOf (.stage l)
    seq := .poll l, pollCnt := n, script := [m] }

/-- An operation about to respond after cleanup. -/
def responding (o : Op) : State :=
  { idle with op := o, result := 0x42, captured := true, started := true, phase := .stopped, seq := .respond }

/-- What a step's next state is asked; a fault or a refusal fails. -/
def holds (o : Host.Outcome State Fault Refusal) (f : State → Bool) : Bool :=
  match o with
  | .next t => f t
  | .fault _ => false
  | .refused _ => false

/-! ### Single steps -/

-- T21, T24
theorem test_init_low_divider : holds (exec .init idle) (fun t => t.ctlDiv == 10 && t.ctlEn && t.sink == [0x0A]) := by
  decide
-- T22: at the threshold the computed divider is used
theorem test_init_threshold : dividerOf { sample with fSys := ⟨3599999⟩ } = Config.divFor100k 3600000 := by
  simp [dividerOf, sample]
-- 42_read_byte.md R110
theorem test_readByte_entry : holds (exec (.readByte 0x0123) { idle with retryCnt := 2, started := true })
    (fun t => t.off == 0x0123 && t.result == 0xFF && !t.captured && !t.started && t.retryCnt == 0 && t.op == .read) := by
  decide
-- T83
theorem test_readByte_before_init : exec (.readByte 0x0123) { idle with ctlEn := false } = .refused .operationBeforeInit := by
  simp [exec, execReadByte]
-- T6, T73
theorem test_invalidate_entry : holds (exec .invalidate { idle with off := 0xABCD, result := 0x42, captured := true })
    (fun t => t.off == 0 && t.result == 0x42 && t.captured && t.op == .inval) := by decide
-- T81: accepted only when ready; T80
theorem test_accept_T81 : holds (step { idle with program := [0x20001] }) (fun t => t.op == .read && t.off == 1) := by
  decide
theorem test_wait_while_busy : holds (step { polling .read .s3 0 silent with program := [0x20001] })
    (fun t => t.off == 0x0123 && t.program == [0x20001] && t.pollCnt == 1) := by decide
-- 41_primitives.md R91, R92: a plain start and a repeated one
theorem test_start_issue : holds (step (issuing .read (.stage .s1) .idle))
    (fun t => t.phase == .startPending && t.ctlPrim == 0 && t.ctlStrobe && t.trace == [.start]) := by decide
theorem test_restart_issue : holds (step (issuing .read (.stage .s5) .addressLowSent))
    (fun t => t.phase == .repeatedStartPending && t.trace == [.restart]) := by decide
-- 41_primitives.md R93; T10a's bytes of 0x0123
theorem test_tx_issue : holds (step (issuing .read (.stage .s3) .deviceSelected))
    (fun t => t.ctlData == 0x01 && t.ctlPrim == 1 && t.trace == [.write 0x01]) := by decide
theorem test_tx_read_select : holds (step (issuing .read (.stage .s6) .repeatedStartPending))
    (fun t => t.ctlData == 0xA1 && t.phase == .readSelected) := by decide
-- 41_primitives.md R94
theorem test_rxNack_issue : holds (step { issuing .read (.stage .s7) .readSelected with ctlData := 0xA1, pollCnt := 3 })
    (fun t => t.ctlPrim == 2 && t.ctlData == 0xA1 && t.pollCnt == 0 && t.trace == [.read]) := by decide
-- T19
theorem test_stop_issue : holds (step { issuing .read .cleanup .byteReceived with pollCnt := 3, lastStatus := 0x58 })
    (fun t => t.phase == .stopped && t.pollCnt == 3 && t.lastStatus == 0x58 && t.seq == .respond && t.trace == [.stop]) := by
  decide
-- T14: completion on the last permitted sample wins
theorem test_poll_T14 : holds (step (polling .read .s2 3 (answer 0x18 0)))
    (fun t => t.seq == toStage .s3 && t.pollCnt == 3 && t.lastStatus == 0x18) := by decide
-- T12, T17: the last empty sample is the timeout; LAST_STATUS is unchanged
theorem test_poll_timeout : holds (step { polling .read .s3 3 silent with lastStatus := 0x18 })
    (fun t => t.seq == toCleanup && t.pollCnt == 4 && t.lastStatus == 0x18) := by decide
-- T30, T34: a start timeout before and after a confirmed start
theorem test_start_timeout_T30 : holds (step { polling .read .s1 3 silent with started := false })
    (fun t => t.seq == .respond && t.errors == [⟨.startTimeout, .plain, .startPending⟩]) := by decide
theorem test_start_timeout_T34 : holds (step (polling .read .s1 3 silent)) (fun t => t.seq == toCleanup) := by decide
-- T31
theorem test_first_start_T31 : holds (step { polling .read .s1 0 (answer 0x00 0) with started := false })
    (fun t => t.seq == toCleanup && !t.started && t.lastStatus == 0) := by decide
-- T35, T36: the ceiling
theorem test_busy_below_ceiling : holds (step { polling .read .s2 0 (answer 0x20 0) with retryCnt := 1 })
    (fun t => t.seq == toStage .s1 && t.retryCnt == 2) := by decide
theorem test_busy_at_ceiling : holds (step { polling .read .s2 0 (answer 0x20 0) with retryCnt := 2 })
    (fun t => t.seq == toCleanup && t.retryCnt == 3 && t.errors.length == 2) := by decide
-- T44: back to step 1, not step 5
theorem test_arbitration_T44 : holds (step (polling .read .s5 0 (answer 0x38 0)))
    (fun t => t.seq == toStage .s1 && t.retryCnt == 0) := by decide
-- T49: not restarted
theorem test_arbitration_T49 : holds (step (polling .read .s7 0 (answer 0x38 0x42)))
    (fun t => t.seq == toCleanup && !t.captured && t.result == 0xFF) := by decide
-- T47: terminal
theorem test_read_select_T47 : holds (step (polling .read .s6 0 (answer 0x48 0)))
    (fun t => t.seq == toCleanup && t.retryCnt == 0 && t.errors == [⟨.notReady, .terminal, .readSelected⟩]) := by decide
-- T18, T51
theorem test_capture_T18 : holds (step { polling .read .s7 1 (answer 0x58 0x42) with ctlPrim := 2 })
    (fun t => t.result == 0x42 && t.captured && t.seq == toCleanup) := by decide
-- T40 and T67: benign in the read alone
theorem test_rejected_T40 : holds (step (polling .read .s3 0 (answer 0x30 0)))
    (fun t => t.errors == [⟨.rejected, .benign, .addressHighSent⟩] && t.seq == toCleanup) := by decide
theorem test_rejected_T67 : holds (step (polling .inval .s3 0 (answer 0x30 0)))
    (fun t => t.errors == [⟨.rejected, .plain, .addressHighSent⟩] && t.seq == toCleanup) := by decide
-- T65: the fill loop is entered from zero
theorem test_fill_entry : holds (step { polling .inval .s4 0 (answer 0x28 0) with fillCnt := 2 })
    (fun t => t.seq == toStage .vf && t.fillCnt == 0) := by decide
-- T60: the eighth byte ends it
theorem test_fill_last : holds (step { polling .inval .vf 0 (answer 0x28 0) with fillCnt := 7 })
    (fun t => t.seq == toCleanup && t.fillCnt == 8) := by decide
-- T63
theorem test_fill_T63 : holds (step { polling .inval .vf 0 (answer 0x30 0) with fillCnt := 4 })
    (fun t => t.seq == toCleanup && t.fillCnt == 4 && t.errors == [⟨.rejected, .terminal, .writeAckReceived⟩]) := by decide
-- 30_encoding.md R63
theorem test_respond : holds (step (responding .read))
    (fun t => t.rspValid && t.rspData == 0x42 && cmdReady t && t.captured) := by decide
-- T57: one character for each error, in order
theorem test_diag_T57 :
    holds (step { polling .read .s2 0 (answer 0x20 0) with
        cfg := { sample with
          diagEnable := true
          diagRows := [⟨.notReady, .plain, .deviceSelected, 0, 0, 0x32⟩, ⟨.retryExhausted, .plain, .deviceSelected, 0, 0, 0x33⟩] }
        retryCnt := 2 })
      (fun t => t.sink == [0x32, 0x33] && t.diagValid && t.diagChar == 0x33) := by decide
-- 70_reset_and_hazards.md R182
theorem test_reset_running : step { polling .read .s3 0 silent with rst := true } = .refused .resetDuringOperation := by
  rfl
-- 70_reset_and_hazards.md R181: INIT is no operation, so between its acceptance and its response reset takes place
theorem test_reset_during_init : holds (step { responding .init with phase := .idle, rst := true })
    (fun t => t.op == .none && !t.ctlEn && !t.rspValid && t.seq == .ready) := by decide
-- the first step after reset runs a placed word
theorem test_placed_start : holds (step (State.reset.withFetchWord 16 0x000)) (fun t => t.trace == [.start]) := by decide
theorem test_placed_tx : holds (step (State.reset.withFetchWord 16 0x1A0)) (fun t => t.trace == [.write 0xA0]) := by decide
theorem test_placed_rxNack : holds (step (State.reset.withFetchWord 16 0x200)) (fun t => t.trace == [.read]) := by decide
theorem test_placed_stop : holds (step (State.reset.withFetchWord 16 0x300)) (fun t => t.trace == [.stop]) := by decide
theorem test_placed_init : holds (step (State.reset.withFetchWord 24 0x10000)) (fun t => t.op == .init) := by decide
theorem test_placed_readByte : holds (step (State.reset.withFetchWord 24 0x20123)) (fun t => t.off == 0x0123) := by decide
theorem test_placed_invalidate : holds (step (State.reset.withFetchWord 24 0x30000)) (fun t => t.op == .inval) := by decide

/-! ### The device oracle and its memory -/

theorem test_memory_write_unlisted : Memory.write [(3, 0x42)] 3 0xFF = [] := by decide
theorem test_memory_order : Memory.writes [] [(9, 1), (2, 5), (9, 7)] = [(2, 5), (9, 7)] := by decide
theorem test_device_busy : (serve (.addr16 0x50) { State.reset.hidden with requests := [0x000, 0x1A0], busy := 2 } []).status = 0x20 := by
  decide
theorem test_device_reads :
    (serve (.addr16 0x50) { State.reset.hidden with requests := [0x000, 0x1A0, 0x101, 0x123, 0x000, 0x1A1, 0x200] }
      [(0x0123, 0x42)]).data = 0x42 := by decide

/-! ### Witnesses: for every obligation with hypotheses, a state and operands that meet them all together

`witness_<Name>` is about `Obligations.<Name>`; obligations whose hypotheses are the same kind of sample share the two
lemmas `sees` and `times_out`, from which their witnesses are built clause by clause. -/

/-- The state in which the sample of a polling state looks. -/
def view (s : State) : State := envStep (beginStep s)

theorem sees (o : Op) (l : Stage) (n : Nat) (st d : Byte) :
    SeesClass (polling o l n (answer st d)) l (classify defaultClassRows (kindOf l) st)
      (view (polling o l n (answer st d))) :=
  ⟨⟨rfl, rfl, rfl⟩, rfl, rfl⟩

theorem times_out (o : Op) (l : Stage) : SeesTimeout (polling o l 3 silent) l (view (polling o l 3 silent)) :=
  ⟨⟨rfl, rfl, rfl⟩, rfl, rfl⟩

/-- A step at its own phase is the machine's invariant, whichever step of the operation it is. -/
theorem polling_inv (o : Op) (l : Stage) (n : Nat) (m : EnvMove) (hl : hasStage sample.addr o l = true) (hn : n < 4) :
    EngineInv (polling o l n m) where
  seq_ok := by
    refine ⟨⟨hl, by simp [polling, idle, sample, State.reset], fun _ => rfl, fun _ => by simp [polling, idle, State.reset, fillSize],
      fun _ => rfl⟩, rfl, ?_⟩
    exact hn
  retry_le := by simp [polling, idle, State.reset]
  poll_le := by
    have hp : (polling o l n m).cfg.pollMax.val = 4 := rfl
    rw [hp]
    exact Nat.le_of_lt hn
  fill_le := by simp [polling, idle, State.reset]
  enabled := fun _ => rfl
  sentinel := fun _ _ => rfl
  zero_offset := by
    intro h
    simp [polling] at h
    simp [polling, h]
  no_high := by simp [polling, idle, sample, addrMode]
  inval_phase := by
    intro h
    simp only [polling] at h
    subst h
    cases l <;> simp_all [polling, phaseOf, hasStage]
  mem_wf := by simp [polling, idle, State.reset, Memory.wf, Memory.wfFrom]

/-- An idle machine meets the invariant. -/
theorem idle_inv (p : List CmdWord) : EngineInv { idle with program := p } where
  seq_ok := ⟨rfl, rfl⟩
  retry_le := by simp [idle, State.reset]
  poll_le := by simp [idle, State.reset]
  fill_le := by simp [idle, State.reset]
  enabled := fun _ => rfl
  sentinel := by simp [idle, State.reset]
  zero_offset := by simp [idle, State.reset]
  no_high := by simp [idle, State.reset]
  inval_phase := by simp [idle, State.reset]
  mem_wf := by simp [idle, State.reset, Memory.wf, Memory.wfFrom]

theorem witness_DecodedWordHoldsItsFields :
    ((0x0FFFF : CmdWord) &&& 0x30000 = 0 ∧ decodeCmd 0x0FFFF = .error .reservedCommand) ∧
    (decodeCmd 0x2FFFF = .ok (.readByte 0xFFFF) ∧ (0x2FFFF : CmdWord) &&& 0x30000 = 0x20000) ∧
    (0x1FF : PrimWord) &&& 0x300 = 0x100 :=
  ⟨⟨by decide, rfl⟩, ⟨rfl, by decide⟩, by decide⟩

theorem witness_SelectByteLayout :
    (∃ cls, sample.addr = .addr16 cls) ∧ (∃ cls, sample8.addr = .addr8f cls) := ⟨⟨_, rfl⟩, ⟨_, rfl⟩⟩

/-- `ADDR8F`, the select byte acknowledged: the invariant's boundary for the skipped step. -/
def polling8 : State := { polling .read .s2 0 (answer 0x18 0) with cfg := sample8 }

theorem polling8_inv : EngineInv polling8 where
  seq_ok := ⟨⟨rfl, by simp [polling8, polling, idle, sample8, sample, State.reset], fun _ => rfl,
    fun h => (by cases h), fun _ => rfl⟩, rfl, by simp [polling8, polling, idle, sample8, sample]⟩
  retry_le := by simp [polling8, polling, idle, State.reset]
  poll_le := by simp [polling8, polling]
  fill_le := by simp [polling8, polling, idle, State.reset]
  enabled := fun _ => rfl
  sentinel := fun _ _ => rfl
  zero_offset := by simp [polling8, polling]
  no_high := by simp [polling8, polling, phaseOf]
  inval_phase := by simp [polling8, polling]
  mem_wf := by simp [polling8, polling, idle, State.reset, Memory.wf, Memory.wfFrom]

theorem witness_HighAddressByteOnlyInAddr16 :
    (∃ v, transacting (polling .inval .s2 0 (answer 0x18 0)) = true ∧
      addrMode (polling .inval .s2 0 (answer 0x18 0)).cfg.addr = .addr16 ∧
      SeesClass (polling .inval .s2 0 (answer 0x18 0)) .s2 .success v) ∧
    (EngineInv polling8 ∧ addrMode polling8.cfg.addr = .addr8f ∧ holds (step polling8) (fun t => t.seq == toStage .s4) = true) :=
  ⟨⟨_, rfl, rfl, sees .inval .s2 0 0x18 0⟩, polling8_inv, rfl, by decide⟩

theorem witness_InvalidateSendsZeroOffsetAndFill :
    EngineInv { idle with program := [0x3ABCD] } ∧
    holds (step { idle with program := [0x3ABCD] }) (fun t => t.op == .inval) = true ∧
    EngineInv (polling .inval .s4 0 (answer 0x28 0)) ∧
    holds (step (polling .inval .s4 0 (answer 0x28 0))) (fun t => t.op == .inval) = true :=
  ⟨idle_inv _, by decide, polling_inv _ _ _ _ rfl (by decide), by decide⟩

/-- A ready machine with a command on the port. -/
def presented (w : CmdWord) : State := { idle with program := [w] }

theorem witness_StepRunsPresentedCommand :
    (presented 0x2FFFF).rst = false ∧ (presented 0x2FFFF).seq = .ready ∧ cmdReady (presented 0x2FFFF) = true ∧
    (presented 0x2FFFF).program = [0x2FFFF] ∧ decodeCmd 0x2FFFF = .ok (.readByte 0xFFFF) := ⟨rfl, rfl, rfl, rfl, rfl⟩

theorem witness_StepRunsIssuedPrimitive :
    (∀ t : Target, (issuing .read t .readSelected).rst = false ∧ (issuing .read t .readSelected).seq = .issue t) :=
  fun _ => ⟨rfl, rfl⟩

theorem witness_ReadyBlockWaits : idle.rst = false ∧ idle.seq = .ready ∧ idle.program = [] := ⟨rfl, rfl, rfl⟩

theorem witness_ReservedCommandRefused :
    (presented 0x0FFFF).rst = false ∧ (presented 0x0FFFF).seq = .ready ∧ cmdReady (presented 0x0FFFF) = true ∧
    (presented 0x0FFFF).program = [0x0FFFF] ∧ (0x0FFFF : CmdWord) &&& 0x30000 = 0 := ⟨rfl, rfl, rfl, rfl, by decide⟩

theorem witness_InitConfiguresEnablesAndResponds :
    idle.rst = false ∧ idle.cfg.fSys.val < idle.cfg.fThreshold.val ∧
    ¬ ({ sample with fSys := sample.fThreshold } : Params).fSys.val < sample.fThreshold.val :=
  ⟨rfl, by decide, by decide⟩

theorem witness_SecondInitChangesNoSetting :
    ∃ t u v, exec .init idle = .next t ∧ step t = .next u ∧ exec .init u = .next v ∧ idle.rst = false :=
  ⟨_, _, _, rfl, step_of_respond rfl rfl, rfl, rfl⟩

theorem witness_ReadByteEntry : idle.ctlEn = true := rfl

theorem witness_InvalidateEntry :
    idle.ctlEn = true ∧ (∃ v, SeesClass (polling .inval .s4 3 (answer 0x28 0)) .s4 .success v) ∧
    (polling .inval .s4 3 (answer 0x28 0)).op = .inval := ⟨rfl, ⟨_, sees .inval .s4 3 0x28 0⟩, rfl⟩

theorem witness_OperationBeforeInitRefused : State.reset.ctlEn = false := rfl

theorem witness_CommandFrame :
    (∃ t, exec .init idle = .next t) ∧ (∃ t, exec (.readByte 0xFFFF) idle = .next t) ∧
    (∃ t, exec .invalidate idle = .next t) ∧ Instr.init.format = .cmd ∧ (Instr.readByte 0xFFFF).format = .cmd ∧
    Instr.invalidate.format = .cmd ∧ Instr.invalidate ≠ .init :=
  ⟨⟨_, rfl⟩, ⟨_, rfl⟩, ⟨_, rfl⟩, rfl, rfl, rfl, by decide⟩

theorem witness_StopIsIssuedAndNotPolled :
    (issuing .read .cleanup .byteReceived).rst = false ∧ (issuing .read .cleanup .byteReceived).seq = .issue .cleanup ∧
    ∃ t, step (issuing .read .cleanup .byteReceived) = .next t := ⟨rfl, rfl, _, step_of_issue rfl rfl⟩

theorem witness_PrimitiveFrame :
    (∃ t, exec .start idle = .next t) ∧ (∃ t, exec (.tx 0xFF) idle = .next t) ∧ (∃ t, exec .rxNack idle = .next t) ∧
    (∃ t, exec .stop idle = .next t) ∧ Instr.start.format = .prim ∧ (Instr.tx 0xFF).format = .prim ∧
    Instr.rxNack.format = .prim ∧ Instr.stop.format = .prim ∧ ∀ b, Instr.stop ≠ .tx b :=
  ⟨⟨_, rfl⟩, ⟨_, rfl⟩, ⟨_, rfl⟩, ⟨_, rfl⟩, rfl, rfl, rfl, rfl, fun _ => by simp⟩

theorem witness_EmptySampleIsCounted :
    ∃ v, Samples (polling .read .s4 2 silent) .s4 v ∧ v.ctlDone = false ∧ v.pollCnt + 1 ≠ v.cfg.pollMax.val :=
  ⟨view (polling .read .s4 2 silent), ⟨rfl, rfl, rfl⟩, rfl, by decide⟩

theorem witness_PollLoopEndsWithinPollMax :
    EngineInv (polling .read .s7 3 silent) ∧ (polling .read .s7 3 silent).rst = false ∧
    (polling .read .s7 3 silent).seq = .poll .s7 := ⟨polling_inv _ _ _ _ rfl (by decide), rfl, rfl⟩

theorem witness_LastStatusWrittenOnlyAtCompletion :
    (∃ v, SeesClass (polling .read .s4 0 (answer 0x28 0)) .s4 .success v) ∧
    (polling .read .s4 0 (answer 0x28 0)).rst = false ∧
    holds (step (polling .read .s4 0 (answer 0x28 0))) (fun t => t.lastStatus != 0) = true ∧
    (polling .read .s4 0 (answer 0x28 0)).lastStatus = 0 := ⟨⟨_, sees .read .s4 0 0x28 0⟩, rfl, by decide, rfl⟩

/-- The classes a polled step can see, each from some status; the read table's clauses. -/
theorem witness_ReadStepTable :
    (∀ l, (polling .read l 0 silent).op = .read) ∧
    (∃ s v, s.op = .read ∧ SeesClass s .s1 .success v) ∧ (∃ s v, s.op = .read ∧ SeesTimeout s .s1 v ∧ v.started = true) ∧
    (∃ s v, s.op = .read ∧ SeesClass s .s2 .success v) ∧ (∃ s v, s.op = .read ∧ SeesClass s .s3 .success v) ∧
    (∃ s v, s.op = .read ∧ SeesClass s .s4 .success v) ∧ (∃ s v, s.op = .read ∧ SeesClass s .s5 .success v) ∧
    (∃ s v, s.op = .read ∧ SeesClass s .s6 .success v) ∧ (∃ s v, s.op = .read ∧ SeesClass s .s6 .notReady v) ∧
    (∀ l, l = .s3 ∨ l = .s4 → ∃ s v, s.op = .read ∧ SeesClass s l .rejected v) ∧
    (∀ l, ∃ s v, s.op = .read ∧ SeesTimeout s l v) := by
  refine ⟨fun _ => rfl, ⟨_, _, rfl, sees .read .s1 0 0x08 0⟩, ⟨_, _, rfl, times_out .read .s1, rfl⟩,
    ⟨_, _, rfl, sees .read .s2 0 0x18 0⟩, ⟨_, _, rfl, sees .read .s3 3 0x28 0⟩, ⟨_, _, rfl, sees .read .s4 0 0x28 0⟩,
    ⟨_, _, rfl, sees .read .s5 0 0x10 0⟩, ⟨_, _, rfl, sees .read .s6 0 0x40 0⟩, ⟨_, _, rfl, sees .read .s6 0 0x48 0⟩, ?_,
    fun l => ⟨_, _, rfl, times_out .read l⟩⟩
  rintro l (rfl | rfl)
  · exact ⟨_, _, rfl, sees .read .s3 0 0x30 0⟩
  · exact ⟨_, _, rfl, sees .read .s4 0 0x30 0⟩

theorem witness_DataPhaseOutcomes :
    (∃ s v, s.op = .read ∧ SeesClass s .s7 .success v) ∧ (∃ s v, s.op = .read ∧ SeesTimeout s .s7 v) ∧
    (∃ s v, s.op = .read ∧ SeesClass s .s7 .arbLost v) ∧ (∃ s v, s.op = .read ∧ SeesClass s .s7 .unexpected v) :=
  ⟨⟨_, _, rfl, sees .read .s7 1 0x58 0xFF⟩, ⟨_, _, rfl, times_out .read .s7⟩, ⟨_, _, rfl, sees .read .s7 0 0x38 0⟩,
    ⟨_, _, rfl, sees .read .s7 0 0x40 0⟩⟩

theorem witness_InvalidateStepTable :
    (∃ s v, s.op = .inval ∧ SeesClass s .s1 .success v) ∧ (∃ s v, s.op = .inval ∧ SeesClass s .s2 .success v) ∧
    (∃ s v, s.op = .inval ∧ SeesClass s .s3 .success v) ∧ (∃ s v, s.op = .inval ∧ SeesClass s .s4 .success v) ∧
    (∃ s v, s.op = .inval ∧ SeesClass s .vf .success v ∧ v.fillCnt + 1 = 8) ∧
    (∃ s v, s.op = .inval ∧ SeesClass s .s3 .rejected v) ∧ (∃ s v, s.op = .inval ∧ SeesClass s .s4 .rejected v) ∧
    (∃ s v, s.op = .inval ∧ SeesClass s .vf .rejected v) ∧ (∀ l, ∃ s v, s.op = .inval ∧ SeesTimeout s l v) :=
  ⟨⟨_, _, rfl, sees .inval .s1 0 0x10 0⟩, ⟨_, _, rfl, sees .inval .s2 0 0x18 0⟩, ⟨_, _, rfl, sees .inval .s3 0 0x28 0⟩,
    ⟨_, _, rfl, sees .inval .s4 0 0x28 0⟩,
    ⟨{ polling .inval .vf 0 (answer 0x28 0) with fillCnt := 7 }, _, rfl, ⟨⟨rfl, rfl, rfl⟩, rfl, rfl⟩, rfl⟩,
    ⟨_, _, rfl, sees .inval .s3 0 0x30 0⟩, ⟨_, _, rfl, sees .inval .s4 0 0x30 0⟩, ⟨_, _, rfl, sees .inval .vf 0 0x30 0⟩,
    fun l => ⟨_, _, rfl, times_out .inval l⟩⟩

theorem witness_StartTimeoutLeavesOrCleansUp :
    (∃ s v, EngineInv s ∧ SeesTimeout s .s1 v ∧ v.started = true ∧ s.op = .read) ∧
    (∃ s v, EngineInv s ∧ SeesTimeout s .s1 v ∧ v.started = false ∧ s.op = .read) := by
  refine ⟨⟨_, _, polling_inv .read .s1 3 silent rfl (by decide), times_out .read .s1, rfl, rfl⟩, ?_⟩
  have h := polling_inv .read .s1 3 silent rfl (by decide)
  refine ⟨{ polling .read .s1 3 silent with started := false }, _, ?_, ⟨⟨rfl, rfl, rfl⟩, rfl, rfl⟩, rfl, rfl⟩
  exact ⟨⟨⟨rfl, h.seq_ok.1.retry_left, fun hl => absurd rfl hl, fun hl => (by cases hl), fun _ => rfl⟩, rfl, h.seq_ok.2.2⟩,
    h.retry_le, h.poll_le, h.fill_le, h.enabled, h.sentinel, h.zero_offset, h.no_high, h.inval_phase, h.mem_wf⟩

theorem witness_BusyRetryUntilCeiling :
    (∃ s v, EngineInv s ∧ SeesClass s .s2 .notReady v ∧ v.retryCnt + 1 < v.cfg.retryMax.val ∧ s.op = .read) ∧
    (∃ s v, EngineInv s ∧ SeesClass s .s2 .notReady v ∧ ¬ v.retryCnt + 1 < v.cfg.retryMax.val) ∧
    (∃ s v, s.op = .read ∧ SeesClass s .s6 .notReady v) := by
  have h := polling_inv .read .s2 0 (answer 0x20 0) rfl (by decide)
  refine ⟨⟨_, _, h, sees .read .s2 0 0x20 0, by decide, rfl⟩,
    ⟨{ polling .read .s2 0 (answer 0x20 0) with retryCnt := 2 }, _, ?_, ⟨⟨rfl, rfl, rfl⟩, rfl, rfl⟩, by decide⟩,
    ⟨_, _, rfl, sees .read .s6 0 0x48 0⟩⟩
  exact ⟨⟨⟨rfl, by decide, h.seq_ok.1.is_started, h.seq_ok.1.fill_left, fun _ => rfl⟩, rfl, h.seq_ok.2.2⟩, by decide,
    h.poll_le, h.fill_le, h.enabled, h.sentinel, h.zero_offset, h.no_high, h.inval_phase, h.mem_wf⟩

theorem witness_ArbitrationLossRestartsAtStepOne :
    (∃ v, SeesClass (polling .inval .vf 0 (answer 0x38 0)) .vf .arbLost v) ∧
    hasStage sample.addr .inval .vf = true ∧ Stage.vf ≠ .s7 ∧
    (∃ v, SeesClass (polling .read .s1 0 (answer 0x38 0)) .s1 .arbLost v) ∧ hasStage sample.addr .read .s1 = true ∧
    (∃ s v, s.op = .inval ∧ SeesClass s .s4 .success v) ∧ (∃ s v, s.op = .read ∧ SeesClass s .s7 .arbLost v) :=
  ⟨⟨_, sees .inval .vf 0 0x38 0⟩, rfl, by decide, ⟨_, sees .read .s1 0 0x38 0⟩, rfl,
    ⟨_, _, rfl, sees .inval .s4 0 0x28 0⟩, ⟨_, _, rfl, sees .read .s7 0 0x38 0⟩⟩

/-- A `Classify` under which a start can be `NotReady`. -/
def oddRows : List ClassRow := [⟨.startK, 0xFF, 0x20, .notReady⟩, ⟨.selWK, 0xFF, 0x30, .rejected⟩, ⟨.addrK, 0xFF, 0x20, .notReady⟩]

theorem witness_UnanticipatedStatusCleansUp :
    (∃ s v, SeesClass s .s1 .unexpected v ∧ hasStage s.cfg.addr s.op .s1 = true) ∧
    (∃ s v, SeesClass s .s1 .notReady v ∧ hasStage s.cfg.addr s.op .s1 = true) ∧
    (∃ s v, SeesClass s .s2 .rejected v ∧ hasStage s.cfg.addr s.op .s2 = true) ∧
    (∃ s v, SeesClass s .s4 .notReady v ∧ hasStage s.cfg.addr s.op .s4 = true) ∧
    (∃ s v, SeesClass s .s7 .arbLost v ∧ hasStage s.cfg.addr s.op .s7 = true) :=
  ⟨⟨_, _, sees .read .s1 0 0x00 0, rfl⟩,
    ⟨{ polling .read .s1 0 (answer 0x20 0) with cfg := { sample with classRows := oddRows } }, _,
      ⟨⟨rfl, rfl, rfl⟩, rfl, rfl⟩, rfl⟩,
    ⟨{ polling .read .s2 0 (answer 0x30 0) with cfg := { sample with classRows := oddRows } }, _,
      ⟨⟨rfl, rfl, rfl⟩, rfl, rfl⟩, rfl⟩,
    ⟨{ polling .read .s4 0 (answer 0x20 0) with cfg := { sample with classRows := oddRows } }, _,
      ⟨⟨rfl, rfl, rfl⟩, rfl, rfl⟩, rfl⟩,
    ⟨_, _, sees .read .s7 0 0x38 0, rfl⟩⟩

theorem witness_RaiseRecordsAndMayEmit :
    idle.cfg.diagEnable = false ∧ diagCode [] .arbLost .plain .startPending 0x38 = none ∧
    diagCode [⟨.arbLost, .plain, .startPending, 0xFF, 0x38, 0x34⟩] .arbLost .plain .startPending 0x38 = some 0x34 :=
  ⟨rfl, rfl, by decide⟩

theorem witness_CleanupStopsThenResponds :
    ((issuing .inval .cleanup .writeAckReceived).rst = false ∧ (issuing .inval .cleanup .writeAckReceived).seq = .issue .cleanup) ∧
    ((responding .read).rst = false ∧ (responding .read).seq = .respond ∧ (responding .read).op = .read) ∧
    (∃ t, step (issuing .inval .cleanup .writeAckReceived) = .next t ∧ t.seq = .respond ∧ t.op ≠ .init) ∧
    (∃ v, SeesTimeout { polling .read .s1 3 silent with started := false } .s1 v ∧ v.started = false) :=
  ⟨⟨rfl, rfl⟩, ⟨rfl, rfl, rfl⟩, ⟨_, step_of_issue rfl rfl, rfl, by decide⟩, ⟨_, ⟨⟨rfl, rfl, rfl⟩, rfl, rfl⟩, rfl⟩⟩

/-- A machine about to respond meets the invariant. -/
theorem responding_inv : EngineInv (responding .read) where
  seq_ok := .inr ⟨rfl, .inl rfl⟩
  retry_le := by simp [responding, idle, State.reset]
  poll_le := by simp [responding, idle, State.reset]
  fill_le := by simp [responding, idle, State.reset]
  enabled := fun _ => rfl
  sentinel := by simp [responding]
  zero_offset := by simp [responding]
  no_high := by simp [responding]
  inval_phase := by simp [responding]
  mem_wf := by simp [responding, idle, State.reset, Memory.wf, Memory.wfFrom]

theorem witness_RspValidOnlyAfterResponseStep :
    (EngineInv (responding .read) ∧ (responding .read).rst = false ∧ (responding .read).seq = .respond ∧
      ∃ t, step (responding .read) = .next t) ∧
    (EngineInv (polling .read .s4 0 silent) ∧ (polling .read .s4 0 silent).seq ≠ .ready ∧
      (polling .read .s4 0 silent).seq ≠ .respond ∧ holds (step (polling .read .s4 0 silent)) (fun _ => true) = true) :=
  ⟨⟨responding_inv, rfl, rfl, _, step_of_respond rfl rfl⟩,
    ⟨polling_inv _ _ _ _ rfl (by decide), by decide, by decide, by decide⟩⟩

theorem witness_ResetInputResetsOrRefuses :
    ({ idle with rst := true } : State).phase = .idle ∧ ({ idle with rst := true } : State).op = .none ∧
    ({ responding .init with phase := .idle, rst := true } : State).op = .init ∧
    ({ polling .read .s4 0 silent with rst := true } : State).phase ≠ .idle ∧
    ({ issuing .inval (.stage .s1) .idle with rst := true } : State).op = .inval := ⟨rfl, rfl, rfl, by decide, rfl⟩

theorem witness_StepKeepsInvariant :
    EngineInv (polling .inval .vf 3 (answer 0x28 0)) ∧
    holds (step (polling .inval .vf 3 (answer 0x28 0))) (fun t => t.fillCnt == 1) = true :=
  ⟨polling_inv _ _ _ _ rfl (by decide), by decide⟩

/-- A read selected, its reception due: the trace so far in `ADDR16`. -/
def receiving : State :=
  { polling .read .s6 0 (answer 0x40 0) with
    trace := [.start, .write 0xA0, .write 0x01, .write 0x23, .restart, .write 0xA1] }

theorem receiving_inv : EngineInv receiving :=
  have h := polling_inv .read .s6 0 (answer 0x40 0) rfl (by decide)
  ⟨⟨⟨rfl, h.seq_ok.1.retry_left, h.seq_ok.1.is_started, h.seq_ok.1.fill_left, fun _ => rfl⟩, rfl, h.seq_ok.2.2⟩, h.retry_le,
    h.poll_le, h.fill_le, h.enabled, h.sentinel, h.zero_offset, h.no_high, h.inval_phase, h.mem_wf⟩

theorem witness_StepKeepsTraceOrder :
    EngineInv receiving ∧ TraceInv receiving ∧ holds (step receiving) (fun t => t.seq == toStage .s7) = true where
  left := receiving_inv
  right := by
    refine ⟨⟨fun _ => .inr rfl, fun _ => rfl, fun _ h => (by cases h), ?_, fun _ _ => rfl, fun _ h => (by cases h), fun h => (by cases h)⟩,
      by decide⟩
    intro _ pre post h
    have hm : BusEvent.read ∈ receiving.trace := by rw [h]; simp
    simp [receiving] at hm

/-- The read over, its stop issued. -/
def stopped : State :=
  { responding .read with off := 0x0123, trace := [.start, .write 0xA0, .stop] }

theorem stopped_inv : EngineInv stopped :=
  ⟨.inr ⟨rfl, .inl rfl⟩, responding_inv.retry_le, responding_inv.poll_le, responding_inv.fill_le, fun _ => rfl,
    responding_inv.sentinel, fun h => (by cases h), responding_inv.no_high, responding_inv.inval_phase,
    responding_inv.mem_wf⟩

theorem stopped_trace : TraceInv stopped := by
  refine ⟨fun _ => .inr rfl, fun _ => rfl, fun _ _ => rfl, ?_, fun _ h => ?_, fun _ h => (by cases h), fun h => (by cases h)⟩
  · intro _ pre post h
    have hm : BusEvent.read ∈ stopped.trace := by rw [h]; simp
    simp [stopped] at hm
  · rcases h with h | h <;> cases h

theorem witness_TransactionEndsWithOneStop :
    (EngineInv stopped ∧ TraceInv stopped ∧ stopped.seq = .respond ∧ transacting stopped = true ∧ stopped.started = true) ∧
    (EngineInv { idle with op := .inval, phase := .startPending, seq := .respond, trace := [.start] } ∧
      TraceInv { idle with op := .inval, phase := .startPending, seq := .respond, trace := [.start] }) := by
  refine ⟨⟨stopped_inv, stopped_trace, rfl, rfl, rfl⟩, ?_, ?_⟩
  · have h := idle_inv []
    exact ⟨.inr ⟨rfl, .inr ⟨rfl, rfl⟩⟩, h.retry_le, h.poll_le, h.fill_le, fun _ => rfl, fun h => (by cases h), fun _ => rfl,
      fun _ => (by decide), fun _ => (by decide), h.mem_wf⟩
  · refine ⟨fun _ => .inr rfl, fun _ => rfl, fun _ h => (by cases h), ?_, fun _ h => ?_, fun _ h => (by cases h),
      fun h => (by cases h)⟩
    · intro _ pre post h
      have hm : BusEvent.read ∈ [BusEvent.start] := by
        have h' : [BusEvent.start] = pre ++ .read :: post := h
        rw [h']
        simp
      simp at hm
    · rcases h with h | h <;> cases h

theorem witness_StepKeepsPrimitiveBound :
    EngineInv receiving ∧ CountInv receiving ∧ transacting receiving = true ∧ noArbLoss receiving ∧
    holds (step receiving) (fun _ => true) = true :=
  ⟨receiving_inv, fun _ _ => rfl, rfl, fun _ h => (by cases h), by decide⟩

theorem witness_PhaseFollowsItsEdges :
    EngineInv (responding .read) ∧ (responding .read).rst = false ∧ ∃ t, step (responding .read) = .next t :=
  ⟨responding_inv, rfl, _, step_of_respond rfl rfl⟩

theorem witness_StepNeverFaultsAndSeldomRefuses :
    EngineInv (presented 0x0FFFF) ∧ EngineInv (polling .read .s7 3 silent) :=
  ⟨idle_inv _, polling_inv _ _ _ _ rfl (by decide)⟩

theorem witness_ParametersNeverChange : ∃ t, step (presented 0x10000) = .next t ∧ t.cfg = sample := ⟨_, rfl, rfl⟩

theorem witness_EnableAndDividerPersist :
    (presented 0x10000).rst = false ∧ (presented 0x10000).ctlEn = true ∧ (presented 0x10000).ctlDiv = 0 ∧
    holds (step (presented 0x10000)) (fun t => t.ctlDiv == 10) = true := ⟨rfl, rfl, rfl, by decide⟩

theorem witness_OffsetAndResultWriters :
    ((presented 0x2FFFF).rst = false ∧ (presented 0x2FFFF).off = 0 ∧
      holds (step (presented 0x2FFFF)) (fun t => t.off == 0xFFFF && t.result == 0xFF) = true) ∧
    holds (step { polling .read .s7 0 (answer 0x58 0x42) with ctlPrim := 2 }) (fun t => t.result == 0x42) = true :=
  ⟨⟨rfl, rfl, by decide⟩, by decide⟩

theorem witness_RetryCounterWriters :
    (polling .read .s2 0 (answer 0x20 0)).rst = false ∧ (polling .read .s2 0 (answer 0x20 0)).retryCnt = 0 ∧
    holds (step (polling .read .s2 0 (answer 0x20 0))) (fun t => t.retryCnt == 1) = true ∧
    holds (step { presented 0x30000 with retryCnt := 3 }) (fun t => t.retryCnt == 0) = true :=
  ⟨rfl, rfl, by decide, by decide⟩

theorem witness_CharactersOnlyAdded :
    idle.cfg.diagEnable = false ∧ holds (step (presented 0x10000)) (fun t => t.sink == [0x0A]) = true := ⟨rfl, by decide⟩

/-- Another pointer and another memory, with the same primitives outstanding, give the chosen device's same answer: so the
premise is met whatever move comes, a free one past an empty script included. -/
theorem witness_HiddenStateStaysHidden :
    (nextMove (beginStep (polling .read .s4 0 (answer 0x28 0))) ≠ .device ∧
      holds (step (polling .read .s4 0 (answer 0x28 0))) (fun _ => true) = true) ∧
    (∀ moves ∈ [[EnvMove.device], []],
      let s := { polling .read .s1 0 silent with
        hidden := { State.reset.hidden with requests := [0x000] }, script := moves }
      let h := { State.reset.hidden with requests := [0x000], ptr := 0x0123, writeTime := 7 }
      let m : Memory := [(0x0123, 0x42)]
      s.seq = .poll .s1 ∧ (h, m) ≠ (s.hidden, s.mem) ∧
      (serve s.cfg.addr h m).done = (serve s.cfg.addr s.hidden s.mem).done ∧
      (serve s.cfg.addr h m).status = (serve s.cfg.addr s.hidden s.mem).status ∧
      (serve s.cfg.addr h m).data = (serve s.cfg.addr s.hidden s.mem).data) ∧
    nextMove (beginStep { polling .read .s1 0 silent with script := [.device] }) = .device :=
  ⟨⟨by decide, by decide⟩, by decide, rfl⟩

theorem witness_BusyEngineIgnoresCommands :
    (polling .read .s4 0 (answer 0x28 0)).rst = false ∧ (polling .read .s4 0 (answer 0x28 0)).seq ≠ .ready ∧
    holds (step (polling .read .s4 0 (answer 0x28 0))) (fun _ => true) = true := ⟨rfl, by decide, by decide⟩

theorem witness_ArbitrationLossNeverEnds :
    ∀ n, let s := { issuing .read (.stage .s1) .idle with script := List.replicate n (answer 0x38 0) }
      s.rst = false ∧ transacting s = true ∧ s.seq = .issue (.stage .s1) ∧
      classify s.cfg.classRows .startK 0x38 = .arbLost ∧ s.script = List.replicate n (.oracle true 0x38 0 State.reset.hidden []) :=
  fun _ => ⟨rfl, rfl, rfl, rfl, rfl⟩

theorem witness_OperationRespondsWithoutArbitrationLoss :
    let s := { polling .read .s7 0 silent with script := List.replicate 86 silent }
    EngineInv s ∧ s.rst = false ∧ transacting s = true ∧
    (∀ m ∈ s.script, ∃ dn st d h ws, m = .oracle dn st d h ws ∧ ∀ k, classify s.cfg.classRows k st ≠ .arbLost) ∧
    (2 * s.cfg.retryMax.val + 11) * (s.cfg.pollMax.val + 1) + 1 ≤ s.script.length := by
  have h := polling_inv .read .s7 0 silent rfl (by decide)
  refine ⟨⟨⟨⟨rfl, h.seq_ok.1.retry_left, h.seq_ok.1.is_started, h.seq_ok.1.fill_left, fun _ => rfl⟩, rfl, h.seq_ok.2.2⟩,
    h.retry_le, h.poll_le, h.fill_le, h.enabled, h.sentinel, h.zero_offset, h.no_high, h.inval_phase, h.mem_wf⟩, rfl, rfl, ?_,
    by decide⟩
  intro m hm
  rw [List.eq_of_mem_replicate hm]
  exact ⟨false, 0, 0, _, _, rfl, fun k => by cases k <;> decide⟩

/-- A ready machine with a command on the port, a device busy for so many selections, and its moves. -/
def attached (w : CmdWord) (busy moves : Nat) : State :=
  { presented w with
    hidden := { State.reset.hidden with busy := busy }
    mem := [(0x0123, 0x42)]
    script := List.replicate moves .device }

/-- The same after an operation that ended by cleanup: its stop is still outstanding, and what it wrote makes the device
busy when the stop is performed. -/
def following (w : CmdWord) (wbuf : List Byte) (writeTime moves : Nat) : State :=
  { attached w 0 moves with
    hidden := { State.reset.hidden with bus := .writing 10, requests := [0x300], wbuf := wbuf, writeTime := writeTime } }

theorem witness_OutstandingStopIsPerformed :
    (attached 0x20123 2 11).hidden.requests = [] ∧ (following 0x20123 [0xFF] 2 11).hidden.requests = [0x300] := ⟨rfl, rfl⟩

theorem witness_ReadReturnsStoredByte : ∀ s ∈ [attached 0x20123 2 11, following 0x20123 [0xFF] 2 11],
    s.rst = false ∧ s.seq = .ready ∧ cmdReady s = true ∧ s.ctlEn = true ∧ s.program = [0x20123] ∧
    decodeCmd 0x20123 = .ok (.readByte 0x0123) ∧ s.cfg.classRows = defaultClassRows ∧
    (serve s.cfg.addr s.hidden s.mem).hidden.busy < s.cfg.retryMax.val ∧
    s.script = List.replicate (2 * (serve s.cfg.addr s.hidden s.mem).hidden.busy + 5 + addrBytes s.cfg.addr) .device ++ [] := by
  rintro _ (_ | ⟨_, _ | ⟨_, ⟨⟩⟩⟩) <;> exact ⟨rfl, rfl, rfl, rfl, rfl, rfl, rfl, by decide, by decide⟩

theorem witness_BusyBeyondCeilingFailsTheRead : ∀ s ∈ [attached 0x20123 3 6, following 0x20123 [0xFF] 7 6],
    s.rst = false ∧ s.seq = .ready ∧ cmdReady s = true ∧ s.ctlEn = true ∧ s.program = [0x20123] ∧
    decodeCmd 0x20123 = .ok (.readByte 0x0123) ∧ s.cfg.classRows = defaultClassRows ∧
    s.cfg.retryMax.val ≤ (serve s.cfg.addr s.hidden s.mem).hidden.busy ∧
    s.script = List.replicate (2 * s.cfg.retryMax.val) .device ++ [] := by
  rintro _ (_ | ⟨_, _ | ⟨_, ⟨⟩⟩⟩) <;> exact ⟨rfl, rfl, rfl, rfl, rfl, rfl, rfl, by decide, by decide⟩

theorem witness_InvalidateErasesTheBlock : ∀ s ∈ [attached 0x30000 2 16, following 0x30000 [] 7 12],
    s.rst = false ∧ s.seq = .ready ∧ cmdReady s = true ∧ s.ctlEn = true ∧ s.program = [0x30000] ∧
    decodeCmd 0x30000 = .ok .invalidate ∧ s.cfg.classRows = defaultClassRows ∧
    (serve s.cfg.addr s.hidden s.mem).hidden.busy < s.cfg.retryMax.val ∧
    s.hidden.writeProtected = false ∧ Memory.wf s.mem = true ∧
    s.script = List.replicate (2 * (serve s.cfg.addr s.hidden s.mem).hidden.busy + 10 + addrBytes s.cfg.addr) .device ++ [] := by
  rintro _ (_ | ⟨_, _ | ⟨_, ⟨⟩⟩⟩) <;> exact ⟨rfl, rfl, rfl, rfl, rfl, rfl, rfl, by decide, rfl, by decide, by decide⟩

end Sys2Proof.Tests
end

section
/-! The bytes of the frames, and the steps and phases a running operation reaches; with them the statements of
30_encoding.md R67 to R69 are settled. -/

namespace Sys2Proof.Machine

/-! ### The byte each label sends -/

@[simp] theorem decodePrim_primWord_s2 (a : AddrCfg) (off : Offset) :
    decodePrim (primWord a off (.stage .s2)) = .tx (selW a off) := decodePrim_tx _

@[simp] theorem decodePrim_primWord_s3 (a : AddrCfg) (off : Offset) :
    decodePrim (primWord a off (.stage .s3)) = .tx (addrHi off) := decodePrim_tx _

@[simp] theorem decodePrim_primWord_s4 (a : AddrCfg) (off : Offset) :
    decodePrim (primWord a off (.stage .s4)) = .tx (addrLo off) := decodePrim_tx _

@[simp] theorem decodePrim_primWord_vf (a : AddrCfg) (off : Offset) :
    decodePrim (primWord a off (.stage .vf)) = .tx fillByte := decodePrim_tx _

@[simp] theorem addrHi_zero : addrHi 0#16 = 0#8 := by decide
@[simp] theorem addrLo_zero : addrLo 0#16 = 0#8 := by decide

@[simp] theorem fold_zero (a : AddrCfg) : fold a 0#16 = 0#8 := by
  cases a with
  | addr16 cls => rfl
  | addr8f cls => simp [fold]

@[simp] theorem selW_zero (a : AddrCfg) : selW a 0#16 = devClassAddr a := by simp [selW]

/-! ### What the invariant says of a step about to issue, or polled -/

theorem EngineInv.stageInv_of_issue {s : State} {l : Stage} (hs : EngineInv s) (hq : s.seq = toStage l) :
    StageInv s l := by
  have h := hs.seq_ok
  simp only [seqInv, hq] at h
  exact h.1

theorem EngineInv.stageInv_of_poll {s : State} {l : Stage} (hs : EngineInv s) (hq : s.seq = .poll l) :
    StageInv s l := by
  have h := hs.seq_ok
  simp only [seqInv, hq] at h
  exact h.1

theorem EngineInv.idle_of_ready {s : State} (hs : EngineInv s) (hq : s.seq = .ready) : s.phase = .idle := by
  have h := hs.seq_ok
  simp only [seqInv, hq] at h
  exact h.1

/-! ### The steps an operation has -/

theorem not_hasStage_s3_of_addr8f {a : AddrCfg} (ha : addrMode a = .addr8f) (o : Op) : hasStage a o .s3 = false := by
  cases o <;> simp [hasStage, ha]

theorem hasStage_s1 {a : AddrCfg} {o : Op} {l : Stage} (h : hasStage a o l = true) : hasStage a o .s1 = true := by
  cases o with
  | read | inval => rfl
  | init | none => cases h

theorem hasStage_s1_of_transacting {s : State} (a : AddrCfg) (h : transacting s = true) :
    hasStage a s.op .s1 = true := by
  cases hop : s.op with
  | read | inval => rfl
  | init | none => simp [transacting, hop] at h

/-! ### What a branch, a sample and an acceptance lead to -/

/-- A branch out of a step the running operation has leads to such a step, where it leads to a step at all. -/
theorem branches_hasStage {d : Byte} {l l' : Stage} {r : PhaseResult} {s t : State} (h : Branches d l r s t)
    (hl : hasStage s.cfg.addr s.op l = true) (hq : t.seq = toStage l') : hasStage s.cfg.addr s.op l' = true := by
  have hs1 : hasStage s.cfg.addr s.op .s1 = true := hasStage_s1 hl
  cases h with
  | confirmed | toHigh _ | toLow _ | highSent | restarted | readSelected =>
    cases hq
    cases hop : s.op <;> simp_all [hasStage]
  | lowSent hop | fillEntered hop =>
    cases hq
    simp [hop, hasStage]
  | busy =>
    unfold busyRetry at hq
    split at hq <;> cases hq
    exact hs1
  | filled =>
    simp only [fillNext, goto_seq] at hq
    split at hq <;> cases hq
    exact hl
  | startTimeout =>
    simp only [raiseTo, goto_seq] at hq
    split at hq <;> cases hq
  | lost _ =>
    cases hq
    exact hs1
  | refusedRead | captured _ | rejected | unanticipated _ | timedOut _ => cases hq

/-- A branch keeps the parameters, the operation, its offset and the phase. -/
theorem branchOf_keeps {l : Stage} {r : PhaseResult} {d : Byte} {s t : State} (h : branchOf l r d s = some t) :
    t.cfg = s.cfg ∧ t.op = s.op ∧ t.off = s.off ∧ t.phase = s.phase := by
  have hk := branches_kept (branchOf_branches h).1
  exact ⟨hk.cfg, hk.op, hk.off, hk.phase⟩

/-- A branch polls nothing, so the step it leads to is about to issue. -/
theorem branchOf_hasStage {l l' : Stage} {r : PhaseResult} {d : Byte} {s t : State} (h : branchOf l r d s = some t)
    (hl : hasStage s.cfg.addr s.op l = true) (hq : t.seq = toStage l' ∨ t.seq = .poll l') :
    hasStage s.cfg.addr s.op l' = true := by
  have hb := (branchOf_branches h).1
  exact branches_hasStage hb hl (hq.resolve_right ((branches_kept hb).not_poll l'))

/-- A sample keeps the parameters, the operation, its offset and the phase. -/
theorem sampled_keeps {l : Stage} {v t : State} (h : sampled l v = .next t) :
    t.cfg = v.cfg ∧ t.op = v.op ∧ t.off = v.off ∧ t.phase = v.phase := by
  obtain ⟨-, hb⟩ | ⟨-, -, hb⟩ | ⟨-, -, rfl⟩ := sampled_cases h
  · exact branchOf_keeps (s := cached v) hb
  · exact branchOf_keeps (s := counted v) hb
  · exact ⟨rfl, rfl, rfl, rfl⟩

/-- After a sample of a step the running operation has, the step about to issue or polled is one it has. -/
theorem sampled_hasStage {l l' : Stage} {v t : State} (h : sampled l v = .next t)
    (hl : hasStage v.cfg.addr v.op l = true) (hv : v.seq = .poll l) (hq : t.seq = toStage l' ∨ t.seq = .poll l') :
    hasStage v.cfg.addr v.op l' = true := by
  obtain ⟨-, hb⟩ | ⟨-, -, hb⟩ | ⟨-, -, rfl⟩ := sampled_cases h
  · exact branchOf_hasStage (s := cached v) hb hl hq
  · exact branchOf_hasStage (s := counted v) hb hl hq
  · obtain rfl : l = l' := by simpa [hv] using hq
    exact hl

/-- An accepted command keeps `phase`, and an operation begins at step 1, `INVALIDATE` with offset zero
(42_read_byte.md R110, 43_invalidate.md R131). -/
theorem exec_accepted {i : Instr} {s t : State} (hi : i = .init ∨ (∃ off, i = .readByte off) ∨ i = .invalidate)
    (h : exec i s = .next t) :
    t.phase = s.phase ∧ ((t.op = .init ∧ t.seq = .respond) ∨
      (transacting t = true ∧ t.seq = toStage .s1 ∧ (t.op = .inval → t.off = 0))) := by
  obtain rfl | ⟨off, rfl⟩ | rfl := hi
  · cases h
    exact ⟨rfl, .inl ⟨rfl, rfl⟩⟩
  · simp only [exec, execReadByte] at h
    split at h <;> cases h
    exact ⟨rfl, .inr ⟨rfl, rfl, nofun⟩⟩
  · simp only [exec, execInvalidate] at h
    split at h <;> cases h
    exact ⟨rfl, .inr ⟨rfl, rfl, fun _ => rfl⟩⟩

/-! ### What a step leads to -/

/-- After a step, `phase` is `Idle`, that of before, or the one the issued label drives toward (10_state.md R21). -/
theorem step_phase {s t : State} (h : step s = .next t) :
    t.phase = .idle ∨ t.phase = s.phase ∨ ∃ q, s.seq = .issue q ∧ t.phase = phaseOf q := by
  obtain ⟨-, -, rfl⟩ | ⟨-, -, rfl⟩ | ⟨-, -, -, rest, i, hi, he⟩ | ⟨-, q, hq, rfl⟩ | ⟨-, l, -, hl⟩ | ⟨-, -, rfl⟩ :=
    step_cases h
  · exact .inl rfl
  · exact .inr (.inl rfl)
  · exact .inr (.inl (exec_accepted hi he).1)
  · exact .inr (.inr ⟨q, hq, rfl⟩)
  · exact .inr (.inl (by simpa using (sampled_keeps hl).2.2.2))
  · exact .inl rfl

/-- An operation that runs after a step ran before it, with the same offset, or the step accepted it. -/
theorem step_transacting {s t : State} (h : step s = .next t) (ht : transacting t = true) :
    (t.op = s.op ∧ t.off = s.off) ∨
    (s.seq = .ready ∧ t.phase = s.phase ∧ t.seq = toStage .s1 ∧ (t.op = .inval → t.off = 0)) := by
  obtain ⟨-, -, rfl⟩ | ⟨-, -, rfl⟩ | ⟨-, hq, -, rest, i, hi, he⟩ | ⟨-, q, -, rfl⟩ | ⟨-, l, -, hl⟩ | ⟨-, -, rfl⟩ :=
    step_cases h
  · cases ht
  · exact .inl ⟨rfl, rfl⟩
  · obtain ⟨hp, ⟨hop, -⟩ | ⟨-, hs, ho⟩⟩ := exec_accepted hi he
    · simp [transacting, hop] at ht
    · exact .inr ⟨hq, hp, hs, ho⟩
  · exact .inl ⟨rfl, rfl⟩
  · obtain ⟨-, hop, hoff, -⟩ := sampled_keeps hl
    exact .inl ⟨by simpa using hop, by simpa using hoff⟩
  · cases ht

/-- From a state of the invariant, the step about to issue or polled next is one the operation has
(42_read_byte.md R120, 43_invalidate.md R139). -/
theorem step_hasStage {s t : State} {l : Stage} (hs : EngineInv s) (h : step s = .next t)
    (hq : t.seq = toStage l ∨ t.seq = .poll l) : hasStage s.cfg.addr t.op l = true := by
  obtain ⟨-, -, rfl⟩ | ⟨-, hr, rfl⟩ | ⟨-, -, -, rest, i, hi, he⟩ | ⟨-, q, hiss, rfl⟩ | ⟨-, l', hp, hl⟩ | ⟨-, -, rfl⟩ :=
    step_cases h
  · rcases hq with hq | hq <;> cases hq
  · simp [hr] at hq
  · obtain ⟨-, ⟨-, hr⟩ | ⟨ht, hl, -⟩⟩ := exec_accepted hi he
    · simp [hr] at hq
    · obtain rfl : .s1 = l := by simpa [hl] using hq
      exact hasStage_s1_of_transacting _ ht
  · cases q with
    | cleanup => simp [afterIssue] at hq
    | stage l' =>
      obtain rfl : l' = l := by simpa [afterIssue] using hq
      exact (hs.stageInv_of_issue hiss).has_stage
  · have hl' := (hs.stageInv_of_poll hp).has_stage
    rw [(sampled_keeps hl).2.1]
    simpa using sampled_hasStage hl (by simpa using hl') (by simpa using hp) hq
  · rcases hq with hq | hq <;> cases hq

/-- `INVALIDATE` keeps offset zero over a step (30_encoding.md R69). -/
theorem step_keeps_zero_offset {s t : State} (hs : EngineInv s) (h : step s = .next t) (ht : t.op = .inval) :
    t.off = 0 := by
  obtain ⟨hop, hoff⟩ | ⟨-, -, -, ho⟩ := step_transacting h (by simp [transacting, ht])
  · rw [hoff]
    exact hs.zero_offset (hop ▸ ht)
  · exact ho ht

/-- No step of `INVALIDATE` enters a read phase (43_invalidate.md R140). -/
theorem step_keeps_inval_phase {s t : State} (hs : EngineInv s) (h : step s = .next t) (ht : t.op = .inval) :
    t.phase ≠ .repeatedStartPending ∧ t.phase ≠ .readSelected ∧ t.phase ≠ .byteReceived := by
  obtain ⟨hop, -⟩ | ⟨hr, hp, -, -⟩ := step_transacting h (by simp [transacting, ht])
  · obtain hp | hp | ⟨q, hq, hp⟩ := step_phase h
    · simp [hp]
    · rw [hp]
      exact hs.inval_phase (hop ▸ ht)
    · rw [hp]
      cases q with
      | cleanup => simp [phaseOf]
      | stage l =>
        have hl := (hs.stageInv_of_issue hq).has_stage
        rw [← hop, ht] at hl
        cases l <;> simp_all [phaseOf, hasStage]
  · simp [hp, hs.idle_of_ready hr]

/-- In `ADDR8F` step 3 is never about to issue (30_encoding.md R67). -/
theorem EngineInv.seq_ne_s3 {s : State} (hs : EngineInv s) (ha : addrMode s.cfg.addr = .addr8f) : s.seq ≠ toStage .s3 := by
  intro hq
  have hl := (hs.stageInv_of_issue hq).has_stage
  simp [not_hasStage_s3_of_addr8f ha] at hl

/-- In `ADDR8F` no step enters `AddressHighSent` (30_encoding.md R67). -/
theorem step_keeps_no_high {s t : State} (hs : EngineInv s) (ha : addrMode s.cfg.addr = .addr8f) (h : step s = .next t) :
    t.phase ≠ .addressHighSent := by
  obtain hp | hp | ⟨q, hq, hp⟩ := step_phase h
  · simp [hp]
  · rw [hp]
    exact hs.no_high ha
  · rw [hp]
    intro hph
    obtain rfl : q = .stage .s3 := by
      rcases q with l | _
      · cases l <;> simp_all [phaseOf]
      · cases hph
    exact hs.seq_ne_s3 ha hq

/-- In `ADDR16` an acknowledged write select of either operation leads to step 3 (42_read_byte.md R112,
43_invalidate.md R133). -/
theorem step_of_selected_addr16 {s v : State} (ht : transacting s = true) (ha : addrMode s.cfg.addr = .addr16)
    (h : SeesClass s .s2 .success v) : step s = .next { cached v with seq := toStage .s3 } := by
  have hv : addrMode (cached v).cfg.addr = .addr16 := by simpa [h.view] using ha
  have hb : selectBranch (.done .success) (cached v) = goto (toStage .s3) (cached v) := by
    simp only [selectBranch, hv]
  cases hop : s.op with
  | read => exact step_of_read_class h hop (congrArg some hb)
  | inval => exact step_of_inval_class h hop (congrArg some hb)
  | init | none => simp [transacting, hop] at ht

/-! ### The statements of 30_encoding.md R67 to R69 -/

/-- Settles O7: the bytes are those of offset zero, and each step from a state of the invariant keeps the offset zero and
reaches only the steps and phases `INVALIDATE` has. -/
theorem invalidateSendsZeroOffsetAndFill : Obligations.InvalidateSendsZeroOffsetAndFill := by
  refine ⟨fun a => ?_, fun s t hs h ht => ?_⟩
  · simp [fillByte]
  · have no_s6 : ¬ (t.seq = toStage .s6 ∨ t.seq = .poll .s6) := fun hq => by
      have hl := step_hasStage hs h hq
      rw [ht] at hl
      cases hl
    obtain ⟨-, hp, -⟩ := step_keeps_inval_phase hs h ht
    exact ⟨step_keeps_zero_offset hs h ht, fun hq => no_s6 (.inl hq), fun hq => no_s6 (.inr hq), hp⟩

/-- Settles O5: step 3 sends `off[15:8]`, follows the write select in `ADDR16`, and is no step of an operation in
`ADDR8F`. -/
theorem highAddressByteOnlyInAddr16 : Obligations.HighAddressByteOnlyInAddr16 :=
  ⟨decodePrim_primWord_s3, fun _ _ => step_of_selected_addr16,
    fun _ _ hs ha h => ⟨step_keeps_no_high hs ha h, hs.seq_ne_s3 ha⟩⟩

/-- Settles O6: the byte of step 4 does not depend on the configuration. -/
theorem lowAddressByteInBothModes : Obligations.LowAddressByteInBothModes := decodePrim_primWord_s4

end Sys2Proof.Machine
end

section
/-! Step 7 of `READ_BYTE`; with it the statement of 42_read_byte.md R117 is settled. -/

namespace Sys2Proof.Machine

@[simp] theorem decodePrim_primWord_s7 (a : AddrCfg) (off : Offset) :
    decodePrim (primWord a off (.stage .s7)) = .rxNack := decodePrim_rxNack _

/-- Step 7 anticipates no class but success: arbitration loss, too, is "any other status" (42_read_byte.md R117). -/
theorem readS7_of_ne_success {c : StatusClass} (hc : c ≠ .success) (d : Byte) (s : State) :
    readS7 (.done c) d s = protocolError s := by
  cases c with
  | success => exact absurd rfl hc
  | arbLost | notReady | rejected | unexpected => rfl

/-- Settles O27: each outcome of the sample in step 7 takes its own branch of the step rule. -/
theorem dataPhaseOutcomes : Obligations.DataPhaseOutcomes := by
  refine ⟨rfl, rfl, decodePrim_primWord_s7, fun s v hop => ⟨fun h => ?_, fun h => ?_, fun c hc h => ?_⟩⟩
  · exact step_of_read_class h hop rfl
  · exact step_of_read_timeout h hop rfl
  · exact step_of_read_class h hop (congrArg some (readS7_of_ne_success hc v.ctlData (cached v)))

end Sys2Proof.Machine
end

section
/-! The entry of `INVALIDATE` and of its fill loop; with it the statement of 43_invalidate.md R131 is settled. -/

namespace Sys2Proof.Machine

/-- With `CTL_EN` set, `INVALIDATE` is accepted, and all it writes is written here; `fill_cnt` is not
(43_invalidate.md R131). -/
theorem exec_invalidate_of_ctlEn {s : State} (h : s.ctlEn = true) :
    exec .invalidate s = .next
      { s with
        op := .inval
        off := 0
        started := false
        retryCnt := 0
        seq := toStage .s1
        trace := []
        errors := [] } := by
  simp only [exec, execInvalidate, h, if_true, goto]

/-- An acknowledged low address byte of `INVALIDATE` enters the fill loop (43_invalidate.md R135, R136). -/
theorem step_of_inval_low_acknowledged {s v : State} (h : SeesClass s .s4 .success v) (ho : s.op = .inval) :
    step s = .next (enterFill (cached v)) :=
  step_of_inval_class h ho rfl

/-- Settles O16: acceptance leaves `fill_cnt` as it is, and the acknowledged low address byte of step 4 clears it. -/
theorem invalidateEntry : Obligations.InvalidateEntry :=
  ⟨fun _ hen => ⟨_, exec_invalidate_of_ctlEn hen, rfl, rfl, rfl, rfl, rfl, rfl, rfl, rfl⟩,
    fun _ _ h ho => step_of_inval_low_acknowledged h ho⟩

end Sys2Proof.Machine
end

section
/-! What a step makes of a timeout of the start, of a busy device, of arbitration loss and of a status it does not
anticipate; with it the statements of 60_exceptions.md R151 to R155 are settled. -/

namespace Sys2Proof.Machine

/-! ### A polled step and its sample -/

/-- A sample that completes takes the branch its class has. -/
theorem step_of_class_branch {s v t : State} {l : Stage} {c : StatusClass} (h : SeesClass s l c v)
    (hb : branchOf l (.done c) v.ctlData (cached v) = some t) : step s = .next t := by
  rw [step_of_seesClass h]
  simp only [branch, hb]

/-- The last permitted sample without completion takes the timeout's branch. -/
theorem step_of_timeout_branch {s v t : State} {l : Stage} (h : SeesTimeout s l v)
    (hb : branchOf l .timeout v.ctlData (counted v) = some t) : step s = .next t := by
  rw [step_of_seesTimeout h]
  simp only [branch, hb]

/-- A sample leaves the running operation the steps it has. -/
theorem hasStage_cached {s v : State} {l : Stage} (h : Samples s l v) (hl : hasStage s.cfg.addr s.op l = true) :
    hasStage (cached v).cfg.addr (cached v).op l = true := by
  simpa [h.view] using hl

theorem hasStage_counted {s v : State} {l : Stage} (h : Samples s l v) (hl : hasStage s.cfg.addr s.op l = true) :
    hasStage (counted v).cfg.addr (counted v).op l = true := by
  simpa [h.view] using hl

/-- While a step is polled, `phase` is the one its label drives toward (10_state.md R21). -/
theorem EngineInv.phase_of_poll {s : State} {l : Stage} (hs : EngineInv s) (hq : s.seq = .poll l) :
    s.phase = phaseOf (.stage l) := by
  have h := hs.seq_ok
  simp only [seqInv, hq] at h
  exact h.2.1

/-- While a step is polled, a read has nothing but its sentinel to respond (10_state.md R13). -/
theorem EngineInv.result_of_poll {s : State} {l : Stage} (hs : EngineInv s) (hq : s.seq = .poll l)
    (hop : s.op = .read) : s.result = 0xFF :=
  hs.sentinel hop ((hs.stageInv_of_poll hq).not_captured hop)

/-! ### Steps 1 and 2, which both operations have -/

theorem branchOf_s1 {s : State} (h : hasStage s.cfg.addr s.op .s1 = true) (r : PhaseResult) (d : Byte) :
    branchOf .s1 r d s = some (startBranch r s) := by
  cases hop : s.op with
  | read | inval =>
    simp only [branchOf, hop]
    rfl
  | init | none =>
    rw [hop] at h
    cases h

theorem branchOf_s2 {s : State} (h : hasStage s.cfg.addr s.op .s2 = true) (r : PhaseResult) (d : Byte) :
    branchOf .s2 r d s = some (selectBranch r s) := by
  cases hop : s.op with
  | read | inval =>
    simp only [branchOf, hop]
    rfl
  | init | none =>
    rw [hop] at h
    cases h

/-! ### A timeout of the start (60_exceptions.md R151) -/

/-- Settles O29: the timeout takes step 1's own branch, which looks at `started`; a read has captured nothing yet. -/
theorem startTimeoutLeavesOrCleansUp : Obligations.StartTimeoutLeavesOrCleansUp := by
  intro s v hs h
  have hst := hasStage_counted h.toSamples (hs.stageInv_of_poll h.polling).has_stage
  have hphase : v.phase = .startPending := by
    simpa [h.view, phaseOf] using hs.phase_of_poll h.polling
  have hop : v.op = s.op := op_of_samples h.toSamples
  have htrace : v.trace = s.trace := by simp [h.view]
  have hresult : v.result = s.result := by simp [h.view]
  refine ⟨raiseTo .startTimeout .plain (if v.started then toCleanup else toExitNoStop) (counted v),
    step_of_timeout_branch h (branchOf_s1 hst _ _), ?_, ?_, fun hv => ⟨?_, ?_⟩, fun hv => ?_, fun hread => ?_⟩
  · simp [raiseTo, hphase]
  · simp [raiseTo, hop]
  · simp [raiseTo, hv]
  · simp [raiseTo, htrace]
  · simp [raiseTo, hv]
  · simp [raiseTo, hresult, hs.result_of_poll h.polling hread]

/-! ### A busy device (60_exceptions.md R152) -/

theorem busyRetry_kept (s : State) : Kept .s2 (.done .notReady) s (busyRetry s) := branches_kept (.busy (d := 0))

@[simp] theorem busyRetry_cfg (s : State) : (busyRetry s).cfg = s.cfg := (busyRetry_kept s).cfg
@[simp] theorem busyRetry_op (s : State) : (busyRetry s).op = s.op := (busyRetry_kept s).op
@[simp] theorem busyRetry_off (s : State) : (busyRetry s).off = s.off := (busyRetry_kept s).off
@[simp] theorem busyRetry_trace (s : State) : (busyRetry s).trace = s.trace := (busyRetry_kept s).trace
@[simp] theorem busyRetry_started (s : State) : (busyRetry s).started = s.started :=
  (busyRetry_kept s).started.resolve_right nofun
@[simp] theorem busyRetry_result (s : State) : (busyRetry s).result = s.result :=
  (busyRetry_kept s).result.resolve_right nofun
@[simp] theorem busyRetry_retryCnt (s : State) : (busyRetry s).retryCnt = s.retryCnt + 1 := by
  unfold busyRetry
  split <;> simp [raiseTo]

/-- Below the ceiling the retry is made: the one error is `E_NOT_READY`, and step 1 is next. -/
theorem busyRetry_below {s : State} (h : s.retryCnt + 1 < s.cfg.retryMax.val) :
    (busyRetry s).seq = toStage .s1 ∧ (busyRetry s).errors = s.errors ++ [⟨.notReady, .plain, s.phase⟩] := by
  simp [busyRetry, h]

/-- At the ceiling the operation is given up: `E_RETRY_EXHAUSTED` follows `E_NOT_READY`, and cleanup is next. -/
theorem busyRetry_at_ceiling {s : State} (h : ¬ s.retryCnt + 1 < s.cfg.retryMax.val) :
    (busyRetry s).seq = toCleanup ∧
      (busyRetry s).errors = s.errors ++ [⟨.notReady, .plain, s.phase⟩, ⟨.retryExhausted, .plain, s.phase⟩] := by
  simp [busyRetry, h, raiseTo]

/-- Settles O30: step 2 takes `busyRetry`, whose case is the count's; step 6 has a `NotReady` of its own, which counts
nothing. -/
theorem busyRetryUntilCeiling : Obligations.BusyRetryUntilCeiling := by
  refine ⟨fun s v hs h => ?_, fun s v hop h => ?_, fun _ _ => decodePrim_stop _⟩
  · have hst := hasStage_cached h.toSamples (hs.stageInv_of_poll h.polling).has_stage
    have hphase : v.phase = .deviceSelected := by
      simpa [h.view, phaseOf] using hs.phase_of_poll h.polling
    have hleft : v.retryCnt < v.cfg.retryMax.val := by
      simpa [h.view] using (hs.stageInv_of_poll h.polling).retry_left
    refine ⟨busyRetry (cached v), step_of_class_branch h (branchOf_s2 hst _ _), busyRetry_retryCnt _, ?_, ?_, ?_, ?_,
      fun hlt => ?_, fun hge => ?_, fun hread => ?_⟩
    · simp [h.view]
    · simp [h.view]
    · simp [h.view]
    · simp [h.view]
    · simpa [hphase] using busyRetry_below (s := cached v) hlt
    · obtain ⟨hseq, herrors⟩ := busyRetry_at_ceiling (s := cached v) hge
      refine ⟨hseq, ?_, by simpa [hphase] using herrors⟩
      rw [busyRetry_retryCnt, busyRetry_cfg]
      exact Nat.le_antisymm hleft (Nat.not_lt.mp hge)
    · simpa [h.view] using hs.result_of_poll h.polling hread
  · exact ⟨raiseTo .notReady .terminal toCleanup (cached v), step_of_read_class h hop rfl, rfl, by simp [raiseTo],
      by simp [raiseTo]⟩

/-! ### Arbitration loss (60_exceptions.md R153) -/

@[simp] theorem decodePrim_primWord_s1 (a : AddrCfg) (off : Offset) :
    decodePrim (primWord a off (.stage .s1)) = .start := decodePrim_start _

/-- Every step an operation has, but step 7, anticipates arbitration loss and restarts. -/
theorem branchOf_arbLost {l : Stage} {s : State} (h : hasStage s.cfg.addr s.op l = true) (hl : l ≠ .s7) (d : Byte) :
    branchOf l (.done .arbLost) d s = some (restart s) := by
  cases hop : s.op with
  | read =>
    simp only [branchOf, hop]
    cases l with
    | s7 => exact absurd rfl hl
    | vf => simp [hop, hasStage] at h
    | s1 | s2 | s3 | s4 | s5 | s6 => rfl
  | inval =>
    simp only [branchOf, hop]
    cases l with
    | s5 | s6 | s7 => simp [hop, hasStage] at h
    | s1 | s2 | s3 | s4 | vf => rfl
  | init | none =>
    rw [hop] at h
    cases h

/-- Settles O31: the restart is one branch for every step but step 7, where arbitration loss is a class like any other. -/
theorem arbitrationLossRestartsAtStepOne : Obligations.ArbitrationLossRestartsAtStepOne := by
  refine ⟨fun s v l h hst hl => ⟨?_, ?_, ?_, ?_⟩, decodePrim_primWord_s1, fun s v hop h => ?_, fun s v hop h => ?_⟩
  · exact step_of_class_branch h (branchOf_arbLost (hasStage_cached h.toSamples hst) hl _)
  · simp [h.view]
  · simp [h.view]
  · simp [h.view]
  · exact ⟨_, step_of_inval_low_acknowledged h hop, rfl, rfl⟩
  · have hb : readS7 (.done .arbLost) v.ctlData (cached v) = protocolError (cached v) :=
      readS7_of_ne_success (by decide) _ _
    exact ⟨_, step_of_read_class h hop (congrArg some hb), rfl, by simp [protocolError, raiseTo]⟩

/-! ### A status not anticipated (60_exceptions.md R155) -/

/-- The classes a step names for a phase of each kind, success first among them; the others it does not anticipate. -/
def anticipates : PhaseKind → StatusClass → Bool
  | _, .success => true
  | _, .unexpected => false
  | k, .notReady => k == .selWK || k == .selRK
  | k, .rejected => k == .addrK || k == .fillK
  | k, .arbLost => k != .recvK

/-- The classes R155 lists for each step are those its phase kind does not anticipate. -/
theorem anticipates_eq_false_iff {l : Stage} {c : StatusClass} : anticipates (kindOf l) c = false ↔
    (c = .unexpected ∨
      ((l = .s1 ∨ l = .s5) ∧ (c = .notReady ∨ c = .rejected)) ∨
      ((l = .s2 ∨ l = .s6) ∧ c = .rejected) ∨
      ((l = .s3 ∨ l = .s4 ∨ l = .vf) ∧ c = .notReady) ∨
      (l = .s7 ∧ c ≠ .success)) := by
  cases c with
  | success | unexpected => simp [anticipates]
  | notReady | rejected | arbLost => cases l <;> simp [anticipates, kindOf]

theorem startBranch_of_unanticipated {c : StatusClass} (h : anticipates .startK c = false) (s : State) :
    startBranch (.done c) s = protocolError s := by
  cases c with
  | success | arbLost => cases h
  | notReady | rejected | unexpected => rfl

theorem selectBranch_of_unanticipated {c : StatusClass} (h : anticipates .selWK c = false) (s : State) :
    selectBranch (.done c) s = protocolError s := by
  cases c with
  | success | notReady | arbLost => cases h
  | rejected | unexpected => rfl

/-- Address and fill bytes anticipate the same classes. -/
theorem addressBranch_of_unanticipated {k : PhaseKind} {c : StatusClass} (hk : k = .addrK ∨ k = .fillK)
    (h : anticipates k c = false) (info : ErrorInfo) (success : State → State) (s : State) :
    addressBranch info success (.done c) s = protocolError s := by
  cases c with
  | success => cases h
  | rejected | arbLost => rcases hk with rfl | rfl <;> cases h
  | notReady | unexpected => rfl

theorem readS5_of_unanticipated {c : StatusClass} (h : anticipates .startK c = false) (s : State) :
    readS5 (.done c) s = protocolError s := by
  cases c with
  | success | arbLost => cases h
  | notReady | rejected | unexpected => rfl

theorem readS6_of_unanticipated {c : StatusClass} (h : anticipates .selRK c = false) (s : State) :
    readS6 (.done c) s = protocolError s := by
  cases c with
  | success | notReady | arbLost => cases h
  | rejected | unexpected => rfl

theorem ne_success_of_unanticipated {k : PhaseKind} {c : StatusClass} (h : anticipates k c = false) : c ≠ .success := by
  rintro rfl
  cases h

/-- A class that a step of the running operation does not anticipate is a protocol error, in each step by its own rule. -/
theorem branchOf_of_unanticipated {l : Stage} {c : StatusClass} {s : State} (hst : hasStage s.cfg.addr s.op l = true)
    (h : anticipates (kindOf l) c = false) (d : Byte) : branchOf l (.done c) d s = some (protocolError s) := by
  cases hop : s.op with
  | read =>
    simp only [branchOf, hop]
    cases l with
    | s1 => exact congrArg some (startBranch_of_unanticipated h s)
    | s2 => exact congrArg some (selectBranch_of_unanticipated h s)
    | s3 | s4 => exact congrArg some (addressBranch_of_unanticipated (.inl rfl) h _ _ s)
    | s5 => exact congrArg some (readS5_of_unanticipated h s)
    | s6 => exact congrArg some (readS6_of_unanticipated h s)
    | s7 => exact congrArg some (readS7_of_ne_success (ne_success_of_unanticipated h) d s)
    | vf => simp [hop, hasStage] at hst
  | inval =>
    simp only [branchOf, hop]
    cases l with
    | s1 => exact congrArg some (startBranch_of_unanticipated h s)
    | s2 => exact congrArg some (selectBranch_of_unanticipated h s)
    | s3 | s4 => exact congrArg some (addressBranch_of_unanticipated (.inl rfl) h _ _ s)
    | vf => exact congrArg some (addressBranch_of_unanticipated (.inr rfl) h _ _ s)
    | s5 | s6 | s7 => simp [hop, hasStage] at hst
  | init | none =>
    rw [hop] at hst
    cases hst

/-- Settles O32: the classes listed are those the step does not anticipate, and each such class takes the branch to
cleanup, whether or not a start is confirmed. -/
theorem unanticipatedStatusCleansUp : Obligations.UnanticipatedStatusCleansUp := by
  intro s v l c h hst hc
  have hv := hasStage_cached h.toSamples hst
  exact step_of_class_branch h (branchOf_of_unanticipated hv (anticipates_eq_false_iff.mpr hc) _)

end Sys2Proof.Machine
end

section
/-! Command and primitive words, and their bytes; with it the statements of 30_encoding.md sections 1 to 4 are settled. -/

namespace Sys2Proof.Machine

/-! ### Words and bytes -/

/-- An instruction's own word reads as the instruction. -/
theorem decode_encode (i : Instr) : decode (encode i) = .ok i := by
  cases i <;> simp [decode, encode, decodeCmd]

/-- The bytes of a word hold the word: the padding is zero, and the pieces meet. -/
theorem ofBytes_toBytes (f : Fetched) : Fetched.ofBytes (Fetched.toBytes f) = .ok f := by
  cases f with
  | prim w =>
    have hpad : ((w.extractLsb' 8 2).setWidth 8).extractLsb' 2 6 = 0 := by ext i hi; simp
    have hword : ((w.extractLsb' 8 2).setWidth 8 ++ w.extractLsb' 0 8).extractLsb' 0 10 = w := by
      ext i hi
      grind
    simp only [Fetched.toBytes, Fetched.ofBytes]
    rw [if_pos hpad, hword]
  | cmd w =>
    have hpad : ((w.extractLsb' 16 2).setWidth 8).extractLsb' 2 6 = 0 := by ext i hi; simp
    have hword : ((w.extractLsb' 16 2).setWidth 8 ++ (w.extractLsb' 8 8 ++ w.extractLsb' 0 8)).extractLsb' 0 18 = w := by
      ext i hi
      grind
    simp only [Fetched.toBytes, Fetched.ofBytes]
    rw [if_pos hpad, hword]

/-- Settles O2: the decoder undoes the encoder on words, and the bytes of a word hold the word. -/
theorem decodeInvertsEncode : Obligations.DecodeInvertsEncode := by
  intro i
  refine ⟨decode_encode i, ?_⟩
  simp only [decodeBytes, ofBytes_toBytes, decode_encode]

/-- Settles O1: each word is one of the tables' rows, read by its code. -/
theorem wordsDecodeAsTabulated : Obligations.WordsDecodeAsTabulated := by
  unfold Obligations.WordsDecodeAsTabulated
  exact ⟨rfl, rfl, rfl, rfl, rfl, rfl, rfl, rfl, rfl, rfl, rfl, rfl, rfl, rfl, rfl, rfl⟩

/-! ### Words and their fields -/

theorem cmdWordOf_fields (w : CmdWord) : cmdWordOf (CmdWord.opc w) (CmdWord.offs w) = w := by
  ext i hi
  grind [cmdWordOf, CmdWord.opc, CmdWord.offs]

theorem primWordOf_fields (w : PrimWord) : primWordOf (PrimWord.kind w) (PrimWord.data w) = w := by
  ext i hi
  grind [primWordOf, PrimWord.kind, PrimWord.data]

/-- The four values of a word's code (30_encoding.md R61, R70). -/
theorem code_cases (o : BitVec 2) : o = 0#2 ∨ o = 1#2 ∨ o = 2#2 ∨ o = 3#2 := by
  revert o
  decide

@[simp] theorem decodeCmd_init (d : Offset) : decodeCmd (cmdWordOf 1#2 d) = .ok .init := by simp [decodeCmd]
@[simp] theorem decodeCmd_readByte (d : Offset) : decodeCmd (cmdWordOf 2#2 d) = .ok (.readByte d) := by simp [decodeCmd]
@[simp] theorem decodeCmd_invalidate (d : Offset) : decodeCmd (cmdWordOf 3#2 d) = .ok .invalidate := by simp [decodeCmd]
@[simp] theorem decodeCmd_reserved (d : Offset) : decodeCmd (cmdWordOf 0#2 d) = .error .reservedCommand := by
  simp [decodeCmd]

/-- The mask of the opcode table sees a command word's code alone. -/
theorem cmd_code_iff (o o' : BitVec 2) (d : Offset) :
    cmdWordOf o d &&& 0x30000 = o' ++ 0#16 ↔ o = o' := by
  rw [Laws.TableRow.cmd_row]
  revert o o'
  decide

/-- Only words of code `0b00` are refused (30_encoding.md R64). -/
theorem decodeCmd_error_iff (w : CmdWord) : decodeCmd w = .error .reservedCommand ↔ w &&& 0x30000 = 0 := by
  rw [← cmdWordOf_fields w]
  refine Iff.trans ?_ (cmd_code_iff _ 0#2 _).symm
  obtain h | h | h | h := code_cases (CmdWord.opc w) <;> simp [h]

/-- A command word agrees with the word of the command it reads as, in the code, and for `READ_BYTE` whole. -/
theorem decodeCmd_agrees {o : BitVec 2} {d : Offset} {i : Instr} (h : decodeCmd (cmdWordOf o d) = .ok i) :
    i.format = .cmd ∧ ∃ d', encode i = .cmd (cmdWordOf o d') ∧ (o = 2#2 → d' = d) := by
  obtain rfl | rfl | rfl | rfl := code_cases o
  · simp at h
  · obtain rfl : Instr.init = i := by simpa using h
    exact ⟨rfl, 0, rfl, fun h => absurd h (by decide)⟩
  · obtain rfl : Instr.readByte d = i := by simpa using h
    exact ⟨rfl, d, rfl, fun _ => rfl⟩
  · obtain rfl : Instr.invalidate = i := by simpa using h
    exact ⟨rfl, 0, rfl, fun h => absurd h (by decide)⟩

/-- A primitive word agrees with the word of the primitive it reads as, in the kind, and for `TX` whole. -/
theorem decodePrim_agrees (k : BitVec 2) (d : Byte) :
    ∃ d', encode (decodePrim (primWordOf k d)) = .prim (primWordOf k d') ∧ (k = 1#2 → d' = d) := by
  obtain rfl | rfl | rfl | rfl := code_cases k
  · exact ⟨0, by simp [encode], fun h => absurd h (by decide)⟩
  · exact ⟨d, by simp [encode], fun _ => rfl⟩
  · exact ⟨0, by simp [encode], fun h => absurd h (by decide)⟩
  · exact ⟨0, by simp [encode], fun h => absurd h (by decide)⟩

/-- Settles O3: under the table's mask a word is its code, and the operand is the rest. -/
theorem decodedWordHoldsItsFields : Obligations.DecodedWordHoldsItsFields := by
  refine ⟨decodeCmd_error_iff, fun w i h => ?_, fun w => ?_⟩
  · rw [← cmdWordOf_fields w] at h ⊢
    obtain ⟨hf, d, he, hd⟩ := decodeCmd_agrees h
    refine ⟨hf, _, he, ?_, fun hm => ?_⟩
    · rw [Laws.TableRow.cmd_row, Laws.TableRow.cmd_row]
    · rw [hd ((cmd_code_iff _ 2#2 _).mp hm)]
  · rw [← primWordOf_fields w]
    obtain ⟨d, he, hd⟩ := decodePrim_agrees (PrimWord.kind w) (PrimWord.data w)
    refine ⟨_, he, ?_, fun hm => ?_⟩
    · rw [Laws.TableRow.prim_row, Laws.TableRow.prim_row]
    · rw [Laws.TableRow.prim_row] at hm
      have hk : PrimWord.kind w = 1#2 := by
        revert hm
        generalize PrimWord.kind w = k
        revert k
        decide
      rw [hd hk]

/-! ### The select bytes and the status table -/

/-- The class address and the folded bits leave the direction bit to the select byte (30_encoding.md R66). -/
theorem selW_direction (a : AddrCfg) (off : Offset) : (selW a off).getLsbD 0 = false := by
  have hclass : (devClassAddr a).getLsbD 0 = false := by
    cases a <;> exact BitVec.getLsbD_append.trans rfl
  have hfold : (fold a off).getLsbD 0 = false := by
    cases a with
    | addr16 cls => exact BitVec.getLsbD_zero
    | addr8f cls => exact BitVec.getLsbD_append.trans (BitVec.getLsbD_append.trans rfl)
  simp only [selW, BitVec.getLsbD_or, hclass, hfold, Bool.or_self]

/-- Settles O4: bit by bit, in each of the two addressing variants. -/
theorem selectByteLayout : Obligations.SelectByteLayout := by
  intro a off
  cases a with
  | addr16 cls =>
    refine ⟨selW_direction _ off, rfl, by simp [selR], by simp [selW, fold], ?_, by simp⟩
    rintro _ _
    simp [selW, fold]
  | addr8f cls =>
    refine ⟨selW_direction _ off, rfl, by simp [selR], ?_, by simp, ?_⟩
    · ext i hi
      grind [selW, fold, devClassAddr]
    · rintro _ _
      ext i hi
      grind [selW, fold, devClassAddr]

/-- Settles O8: the rows of each kind under the one mask `0xF8`, whose patterns differ. -/
theorem defaultClassifyTable : Obligations.DefaultClassifyTable := by
  intro k s
  generalize hm : s &&& 0xF8 = m
  cases k <;> simp only [classify, defaultClassRows, hm, reduceCtorEq, false_and, true_and, if_false]
  all_goals grind

end Sys2Proof.Machine
end

section
/-! What acceptance, an issue and a branch do to the registers of the invariants; with it the statement that every step keeps
the invariant of the machine is settled. -/

namespace Sys2Proof.Machine

/-! ### The state an accepted command leaves -/

/-- `INIT` accepted (40_init.md R80). -/
def initAccepted (s : State) : State :=
  { s with
    ctlDiv := dividerOf s.cfg
    ctlEn := true
    diagValid := true
    diagChar := newline
    sink := s.sink ++ [newline]
    op := .init
    seq := .respond
    trace := []
    errors := [] }

/-- `READ_BYTE off` accepted (42_read_byte.md R110). -/
def readAccepted (off : Offset) (s : State) : State :=
  { s with
    op := .read
    off := off
    result := failSentinel
    captured := false
    started := false
    retryCnt := 0
    seq := toStage .s1
    trace := []
    errors := [] }

/-- `INVALIDATE` accepted (43_invalidate.md R131). -/
def invalAccepted (s : State) : State :=
  { s with
    op := .inval
    off := 0
    started := false
    retryCnt := 0
    seq := toStage .s1
    trace := []
    errors := [] }

theorem exec_init (s : State) : exec .init s = .next (initAccepted s) := rfl

theorem exec_readByte_of_ctlEn {s : State} (h : s.ctlEn = true) (off : Offset) :
    exec (.readByte off) s = .next (readAccepted off s) := by
  simp only [exec, execReadByte, h, if_true, goto, readAccepted]

/-- Everything an accepted command can have done. -/
theorem accepted_cases {i : Instr} {s t : State} (hi : i = .init ∨ (∃ off, i = .readByte off) ∨ i = .invalidate)
    (h : exec i s = .next t) :
    t = initAccepted s ∨ (s.ctlEn = true ∧ ∃ off, t = readAccepted off s) ∨ (s.ctlEn = true ∧ t = invalAccepted s) := by
  obtain rfl | ⟨off, rfl⟩ | rfl := hi
  · cases h
    exact .inl rfl
  · simp only [exec, execReadByte] at h
    split at h <;> cases h
    exact .inr (.inl ⟨‹_›, off, rfl⟩)
  · simp only [exec, execInvalidate] at h
    split at h <;> cases h
    exact .inr (.inr ⟨‹_›, rfl⟩)

/-! ### The word a label issues -/

theorem kind_primWord_eq_stop {a : AddrCfg} {off : Offset} {q : Target} :
    PrimWord.kind (primWord a off q) = 3#2 ↔ q = .cleanup := by
  cases q with
  | cleanup => simp [primWord]
  | stage l => cases l <;> simp [primWord]

/-- The state a step leaves that issues the primitive of a label. -/
def issued (q : Target) (s : State) : State :=
  issue (primWord s.cfg.addr s.off q) { beginStep s with phase := phaseOf q, seq := afterIssue q }

theorem issued_pollCnt_stage (l : Stage) (s : State) : (issued (.stage l) s).pollCnt = 0 := by
  simp [issued, kind_primWord_eq_stop]

theorem issued_pollCnt_cleanup (s : State) : (issued .cleanup s).pollCnt = s.pollCnt := by
  simp [issued, kind_primWord_eq_stop]

/-! ### What the invariant says of an operation -/

theorem transacting_of_hasStage {s : State} {a : AddrCfg} {l : Stage} (h : hasStage a s.op l = true) :
    transacting s = true := by
  cases hop : s.op with
  | read | inval => simp [transacting, hop]
  | init | none => simp [hop, hasStage] at h

/-- The registers that the machine's invariant reads, but for the device's memory. -/
structure SameControl (s t : State) : Prop where
  cfg      : t.cfg = s.cfg
  op       : t.op = s.op
  off      : t.off = s.off
  result   : t.result = s.result
  retryCnt : t.retryCnt = s.retryCnt
  pollCnt  : t.pollCnt = s.pollCnt
  fillCnt  : t.fillCnt = s.fillCnt
  phase    : t.phase = s.phase
  seq      : t.seq = s.seq
  captured : t.captured = s.captured
  started  : t.started = s.started
  ctlEn    : t.ctlEn = s.ctlEn

/-- What a stage needs is read off `op`, the counters and the flags. -/
theorem StageInv.congr {s t : State} {l : Stage} (h : StageInv s l) (hcfg : t.cfg = s.cfg) (hop : t.op = s.op)
    (hretry : t.retryCnt = s.retryCnt) (hfill : t.fillCnt = s.fillCnt) (hcap : t.captured = s.captured)
    (hstart : t.started = s.started) : StageInv t l where
  has_stage := by simpa only [hcfg, hop] using h.has_stage
  retry_left := by simpa only [hcfg, hretry] using h.retry_left
  is_started := by simpa only [hstart] using h.is_started
  fill_left := by simpa only [hfill] using h.fill_left
  not_captured := by simpa only [hop, hcap] using h.not_captured

theorem SameControl.stageInv {s t : State} (h : SameControl s t) {l : Stage} (hl : StageInv s l) : StageInv t l :=
  hl.congr h.cfg h.op h.retryCnt h.fillCnt h.captured h.started

theorem SameControl.transacting {s t : State} (h : SameControl s t) : transacting t = transacting s := by
  simp only [Machine.transacting, h.op]

theorem SameControl.seqInv {s t : State} (h : SameControl s t) (hs : seqInv s) : seqInv t := by
  unfold Machine.seqInv at hs ⊢
  rw [h.seq]
  cases hq : s.seq with
  | ready => simpa [hq, h.phase, h.op] using hs
  | respond => simpa [hq, h.phase, h.op, h.started, h.transacting] using hs
  | poll l =>
    simp only [hq] at hs
    exact ⟨h.stageInv hs.1, by simpa [h.phase] using hs.2.1, by simpa [h.pollCnt, h.cfg] using hs.2.2⟩
  | issue q =>
    cases q with
    | cleanup => simpa [hq, h.phase, h.transacting] using hs
    | stage l =>
      simp only [hq] at hs
      exact ⟨h.stageInv hs.1, by simpa [h.phase] using hs.2⟩

/-- The invariant is one of those registers, and of the canonical memory. -/
theorem EngineInv.of_sameControl {s t : State} (hs : EngineInv s) (h : SameControl s t) (hm : Memory.wf t.mem = true) :
    EngineInv t where
  seq_ok := h.seqInv hs.seq_ok
  retry_le := by simpa [h.retryCnt, h.cfg] using hs.retry_le
  poll_le := by simpa [h.pollCnt, h.cfg] using hs.poll_le
  fill_le := by simpa [h.fillCnt] using hs.fill_le
  enabled := by simpa [h.transacting, h.ctlEn] using hs.enabled
  sentinel := by simpa [h.op, h.captured, h.result] using hs.sentinel
  zero_offset := by simpa [h.op, h.off] using hs.zero_offset
  no_high := by simpa [h.cfg, h.phase] using hs.no_high
  inval_phase := by simpa [h.op, h.phase] using hs.inval_phase
  mem_wf := hm

theorem sameControl_beginStep (s : State) : SameControl s (beginStep s) :=
  ⟨rfl, rfl, rfl, rfl, rfl, rfl, rfl, rfl, rfl, rfl, rfl, rfl⟩

theorem sameControl_cached (s : State) : SameControl s (cached s) :=
  ⟨rfl, rfl, rfl, rfl, rfl, rfl, rfl, rfl, rfl, rfl, rfl, rfl⟩

theorem sameControl_envStep (s : State) : SameControl s (envStep s) := by constructor <;> simp

theorem EngineInv.beginStep {s : State} (hs : EngineInv s) : EngineInv (beginStep s) :=
  hs.of_sameControl (sameControl_beginStep s) hs.mem_wf

theorem EngineInv.envStep {s : State} (hs : EngineInv s) : EngineInv (envStep s) :=
  hs.of_sameControl (sameControl_envStep s) (wf_envStep s hs.mem_wf)

theorem EngineInv.cached {s : State} (hs : EngineInv s) : EngineInv (cached s) :=
  hs.of_sameControl (sameControl_cached s) hs.mem_wf

theorem EngineInv.pollCnt_lt {s : State} {l : Stage} (hs : EngineInv s) (hq : s.seq = .poll l) :
    s.pollCnt < s.cfg.pollMax.val := by
  have h := hs.seq_ok
  simp only [Machine.seqInv, hq] at h
  exact h.2.2

theorem EngineInv.none_of_ready {s : State} (hs : EngineInv s) (hq : s.seq = .ready) : s.op = .none := by
  have h := hs.seq_ok
  simp only [Machine.seqInv, hq] at h
  exact h.2

theorem EngineInv.edge_of_issue {s : State} {q : Target} (hs : EngineInv s) (hq : s.seq = .issue q) :
    phaseEdge s.phase (phaseOf q) = true := by
  have h := hs.seq_ok
  simp only [Machine.seqInv, hq] at h
  cases q <;> exact h.2

theorem EngineInv.transacting_of_issue {s : State} {q : Target} (hs : EngineInv s) (hq : s.seq = .issue q) :
    Machine.transacting s = true := by
  cases q with
  | stage l => exact transacting_of_hasStage (hs.stageInv_of_issue hq).has_stage
  | cleanup =>
    have h := hs.seq_ok
    simp only [Machine.seqInv, hq] at h
    exact h.1

theorem EngineInv.transacting_of_poll {s : State} {l : Stage} (hs : EngineInv s) (hq : s.seq = .poll l) :
    Machine.transacting s = true :=
  transacting_of_hasStage (hs.stageInv_of_poll hq).has_stage

/-! ### The invariant over the engine's steps -/

theorem EngineInv.resetBlock {s : State} (hs : EngineInv s) : EngineInv (resetBlock s) where
  seq_ok := ⟨rfl, rfl⟩
  retry_le := Nat.zero_le _
  poll_le := Nat.zero_le _
  fill_le := Nat.zero_le _
  enabled := nofun
  sentinel := nofun
  zero_offset := nofun
  no_high _ := nofun
  inval_phase := nofun
  mem_wf := hs.mem_wf

theorem stageInv_s1 {s : State} (hop : Machine.transacting s = true) (hr : s.retryCnt < s.cfg.retryMax.val)
    (hc : s.op = .read → s.captured = false) : StageInv s .s1 where
  has_stage := hasStage_s1_of_transacting _ hop
  retry_left := hr
  is_started h := absurd rfl h
  fill_left := nofun
  not_captured := hc

/-- Acceptance by a ready block: `phase` is `Idle`, so the first start is due. -/
theorem EngineInv.accepted {s t : State} (hs : EngineInv s) (hp : s.phase = .idle)
    (h : t = initAccepted s ∨ (s.ctlEn = true ∧ ∃ off, t = readAccepted off s) ∨ (s.ctlEn = true ∧ t = invalAccepted s)) :
    EngineInv t := by
  obtain rfl | ⟨hen, off, rfl⟩ | ⟨hen, rfl⟩ := h
  · exact
      { seq_ok := .inl ⟨rfl, hp⟩, retry_le := hs.retry_le, poll_le := hs.poll_le, fill_le := hs.fill_le, enabled := nofun,
        sentinel := nofun, zero_offset := nofun, no_high := hs.no_high, inval_phase := nofun, mem_wf := hs.mem_wf }
  · exact
      { seq_ok := ⟨stageInv_s1 rfl (Nat.succ_pos _) fun _ => rfl, by simp [readAccepted, hp, phaseOf, phaseEdge]⟩
        retry_le := Nat.zero_le _, poll_le := hs.poll_le, fill_le := hs.fill_le, enabled := fun _ => hen
        sentinel := fun _ _ => rfl, zero_offset := nofun, no_high := hs.no_high, inval_phase := nofun
        mem_wf := hs.mem_wf }
  · exact
      { seq_ok := ⟨stageInv_s1 rfl (Nat.succ_pos _) nofun, by simp [invalAccepted, hp, phaseOf, phaseEdge]⟩
        retry_le := Nat.zero_le _, poll_le := hs.poll_le, fill_le := hs.fill_le, enabled := fun _ => hen
        sentinel := nofun, zero_offset := fun _ => rfl, no_high := hs.no_high
        inval_phase := fun _ => by simp [invalAccepted, hp], mem_wf := hs.mem_wf }

theorem EngineInv.issued {s : State} {q : Target} (hs : EngineInv s) (hr : s.rst = false) (hq : s.seq = .issue q) :
    EngineInv (issued q s) where
  seq_ok := by
    cases q with
    | cleanup => exact .inr ⟨hs.transacting_of_issue hq, .inl rfl⟩
    | stage l =>
      refine ⟨(hs.stageInv_of_issue hq).congr rfl rfl rfl rfl rfl rfl, rfl, ?_⟩
      rw [issued_pollCnt_stage]
      exact Nat.succ_pos _
  retry_le := hs.retry_le
  poll_le := by
    cases q with
    | cleanup =>
      rw [issued_pollCnt_cleanup]
      exact hs.poll_le
    | stage l => simp only [issued_pollCnt_stage, Nat.zero_le]
  fill_le := hs.fill_le
  enabled := hs.enabled
  sentinel := hs.sentinel
  zero_offset := hs.zero_offset
  no_high ha := step_keeps_no_high hs ha (step_of_issue hr hq)
  inval_phase hop := step_keeps_inval_phase hs (step_of_issue hr hq) hop
  mem_wf := hs.mem_wf

theorem EngineInv.respond {s : State} (hs : EngineInv s) : EngineInv (respond s) where
  seq_ok := ⟨rfl, rfl⟩
  retry_le := hs.retry_le
  poll_le := hs.poll_le
  fill_le := hs.fill_le
  enabled := nofun
  sentinel := nofun
  zero_offset := nofun
  no_high _ := nofun
  inval_phase := nofun
  mem_wf := hs.mem_wf

/-! ### The invariant over a branch -/

section Branch

variable {d : Byte} {l : Stage} {r : PhaseResult} {s t : State}

/-- A branch that goes on moves `phase` along its edges (10_state.md R22). -/
theorem branches_edge (h : Branches d l r s t) {q : Target} (hq : t.seq = .issue q) :
    phaseEdge (phaseOf (.stage l)) (phaseOf q) = true := by
  cases h with
  | confirmed | toHigh _ | toLow _ | highSent | lowSent _ | restarted | readSelected | refusedRead | captured _
  | fillEntered _ =>
    cases hq
    rfl
  | rejected | unanticipated _ | timedOut _ =>
    cases hq
    cases l <;> rfl
  | lost hl =>
    cases hq
    cases l with
    | s7 => exact absurd rfl hl
    | _ => rfl
  | startTimeout =>
    simp only [raiseTo, goto_seq] at hq
    split at hq <;> cases hq
    rfl
  | busy =>
    unfold busyRetry at hq
    split at hq <;> cases hq <;> rfl
  | filled =>
    simp only [fillNext, goto_seq] at hq
    split at hq <;> cases hq <;> rfl

/-- A branch to another step than cleanup leaves a retry. -/
theorem branches_retry_left (h : Branches d l r s t) {l' : Stage} (hq : t.seq = toStage l')
    (hs : s.retryCnt < s.cfg.retryMax.val) : t.retryCnt < s.cfg.retryMax.val := by
  obtain hk | ⟨rfl, rfl, -⟩ := (branches_kept h).retryCnt
  · rwa [hk]
  · cases h with
    | busy =>
      by_cases hlt : s.retryCnt + 1 < s.cfg.retryMax.val
      · simpa using hlt
      · rw [(busyRetry_at_ceiling hlt).1] at hq
        cases hq
    | unanticipated _ => cases hq

/-- A branch beyond step 1 comes from a start confirmed. -/
theorem branches_started (h : Branches d l r s t) {l' : Stage} (hq : t.seq = toStage l') (hl' : l' ≠ .s1)
    (hs : l ≠ .s1 → s.started = true) : t.started = true := by
  obtain hk | ⟨-, -, hk⟩ := (branches_kept h).started
  · rw [hk]
    cases h with
    | confirmed => exact hk.symm
    | startTimeout =>
      simp only [raiseTo, goto_seq] at hq
      split at hq <;> cases hq
    | lost _ =>
      cases hq
      exact absurd rfl hl'
    | rejected | unanticipated _ => cases hq
    | timedOut hl => exact hs hl
    | _ => exact hs (by decide)
  · exact hk

/-- A branch into the fill loop leaves a fill byte to send. -/
theorem branches_fill_left (h : Branches d l r s t) (hq : t.seq = toStage .vf) : t.fillCnt < fillSize := by
  cases h with
  | fillEntered _ => simp [enterFill, fillSize]
  | filled =>
    simp only [fillNext, goto_seq] at hq
    split at hq
    · simpa [fillNext]
    · cases hq
  | startTimeout =>
    simp only [raiseTo, goto_seq] at hq
    split at hq <;> cases hq
  | busy =>
    unfold busyRetry at hq
    split at hq <;> cases hq
  | _ => cases hq

/-- A branch counts no fill byte beyond the last. -/
theorem branches_fill_le (h : Branches d l r s t) (hs : s.fillCnt ≤ fillSize) (hl : l = .vf → s.fillCnt < fillSize) :
    t.fillCnt ≤ fillSize := by
  obtain hk | ⟨-, -, hk⟩ | ⟨hvf, hk⟩ := (branches_kept h).fillCnt
  · rwa [hk]
  · simp [hk]
  · rw [hk]
    exact hl hvf

/-- A branch to another step than cleanup captures nothing. -/
theorem branches_captured (h : Branches d l r s t) {l' : Stage} (hq : t.seq = toStage l') : t.captured = s.captured := by
  obtain hk | ⟨rfl, rfl, -⟩ := (branches_kept h).captured
  · exact hk
  · cases h with
    | captured _ => cases hq
    | unanticipated _ => cases hq

/-- What has not been captured is the sentinel of before. -/
theorem branches_result (h : Branches d l r s t) (hc : t.captured = false) :
    t.captured = s.captured ∧ t.result = s.result := by
  cases h with
  | captured _ => cases hc
  | busy => exact ⟨(busyRetry_kept s).captured.resolve_right nofun, (busyRetry_kept s).result.resolve_right nofun⟩
  | _ => simp [raiseTo, restart, protocolError, phaseTimeout, enterFill, fillNext]

theorem branches_transacting (h : Branches d l r s t) : transacting t = transacting s := by
  simp only [transacting, (branches_kept h).op]

/-- A step that a branch leads to has what it needs. -/
theorem StageInv.branched (hl : StageInv s l) (h : Branches d l r s t) {l' : Stage} (hq : t.seq = toStage l') :
    StageInv t l' where
  has_stage := by
    rw [(branches_kept h).cfg, (branches_kept h).op]
    exact branches_hasStage h hl.has_stage hq
  retry_left := by
    rw [(branches_kept h).cfg]
    exact branches_retry_left h hq hl.retry_left
  is_started hl' := branches_started h hq hl' hl.is_started
  fill_left hvf := branches_fill_left h (hvf ▸ hq)
  not_captured hop := by
    rw [branches_captured h hq]
    exact hl.not_captured ((branches_kept h).op ▸ hop)

/-- Where a branch leads, the sequencer, `phase`, `op` and `started` agree. -/
theorem branches_seqInv (h : Branches d l r s t) (hl : StageInv s l) (hp : s.phase = phaseOf (.stage l)) : seqInv t := by
  have hk := branches_kept h
  have ht : transacting t = true := (branches_transacting h).trans (transacting_of_hasStage hl.has_stage)
  cases hq : t.seq with
  | ready => exact absurd hq hk.not_ready
  | poll l' => exact absurd hq (hk.not_poll l')
  | issue q =>
    have he : phaseEdge t.phase (phaseOf q) = true := by
      rw [hk.phase, hp]
      exact branches_edge h hq
    cases q with
    | cleanup => simpa only [seqInv, hq] using ⟨ht, he⟩
    | stage l' => simpa only [seqInv, hq] using ⟨hl.branched h hq, he⟩
  | respond =>
    obtain ⟨rfl, rfl, hst⟩ := hk.no_stop hq
    have hst' : t.started = false := (hk.started.resolve_right nofun).trans hst
    have hph : t.phase = .startPending := hk.phase.trans hp
    simp only [seqInv, hq]
    exact .inr ⟨ht, .inr ⟨hph, hst'⟩⟩

end Branch

/-- What the invariant says of the state a branch begins from: the sample, counted or cached, of a polled step. -/
structure BranchPoint (u : State) (l : Stage) : Prop where
  stage       : StageInv u l
  phase       : u.phase = phaseOf (.stage l)
  poll_le     : u.pollCnt ≤ u.cfg.pollMax.val
  fill_le     : u.fillCnt ≤ fillSize
  enabled     : u.ctlEn = true
  sentinel    : u.op = .read → u.result = failSentinel
  zero_offset : u.op = .inval → u.off = 0
  no_high     : addrMode u.cfg.addr = .addr8f → u.phase ≠ .addressHighSent
  inval_phase : u.op = .inval →
    u.phase ≠ .repeatedStartPending ∧ u.phase ≠ .readSelected ∧ u.phase ≠ .byteReceived
  mem_wf      : Memory.wf u.mem = true

theorem EngineInv.branchPoint_cached {v : State} {l : Stage} (hv : EngineInv v) (hq : v.seq = .poll l) :
    BranchPoint (Machine.cached v) l :=
  ⟨(hv.stageInv_of_poll hq).congr rfl rfl rfl rfl rfl rfl, hv.phase_of_poll hq, hv.poll_le, hv.fill_le,
    hv.enabled (hv.transacting_of_poll hq), hv.result_of_poll hq, hv.zero_offset, hv.no_high, hv.inval_phase, hv.mem_wf⟩

theorem EngineInv.branchPoint_counted {v : State} {l : Stage} (hv : EngineInv v) (hq : v.seq = .poll l) :
    BranchPoint (counted v) l :=
  ⟨(hv.stageInv_of_poll hq).congr rfl rfl rfl rfl rfl rfl, hv.phase_of_poll hq, hv.pollCnt_lt hq, hv.fill_le,
    hv.enabled (hv.transacting_of_poll hq), hv.result_of_poll hq, hv.zero_offset, hv.no_high, hv.inval_phase, hv.mem_wf⟩

/-- A branch leads from such a state to one of the invariant. -/
theorem BranchPoint.branched {d : Byte} {l : Stage} {r : PhaseResult} {u t : State} (hu : BranchPoint u l)
    (h : Branches d l r u t) : EngineInv t := by
  have hk := branches_kept h
  obtain ⟨-, hctlEn, -⟩ := hk.ctl
  obtain ⟨-, hm, -⟩ := hk.outside
  exact
    { seq_ok := branches_seqInv h hu.stage hu.phase
      retry_le := by
        rw [hk.cfg]
        obtain hr | ⟨-, -, hr⟩ := hk.retryCnt
        · rw [hr]
          exact Nat.le_of_lt hu.stage.retry_left
        · rw [hr]
          exact hu.stage.retry_left
      poll_le := by
        rw [hk.cfg, hk.pollCnt]
        exact hu.poll_le
      fill_le := branches_fill_le h hu.fill_le hu.stage.fill_left
      enabled := fun _ => hctlEn.trans hu.enabled
      sentinel := fun hop hc => by
        rw [(branches_result h hc).2]
        exact hu.sentinel (hk.op ▸ hop)
      zero_offset := by
        rw [hk.op, hk.off]
        exact hu.zero_offset
      no_high := by
        rw [hk.cfg, hk.phase]
        exact hu.no_high
      inval_phase := by
        rw [hk.op, hk.phase]
        exact hu.inval_phase
      mem_wf := by
        rw [hm]
        exact hu.mem_wf }

/-- A sample that is counted and was not the last permitted one. -/
theorem EngineInv.counted {v : State} {l : Stage} (hv : EngineInv v) (hq : v.seq = .poll l)
    (hlast : v.pollCnt + 1 ≠ v.cfg.pollMax.val) : EngineInv (counted v) where
  seq_ok := by
    have hlt := hv.pollCnt_lt hq
    have h : StageInv (Machine.counted v) l ∧ v.phase = phaseOf (.stage l) ∧ v.pollCnt + 1 < v.cfg.pollMax.val :=
      ⟨(hv.stageInv_of_poll hq).congr rfl rfl rfl rfl rfl rfl, hv.phase_of_poll hq, by omega⟩
    simp only [Machine.seqInv, counted_seq, hq]
    exact h
  retry_le := hv.retry_le
  poll_le := hv.pollCnt_lt hq
  fill_le := hv.fill_le
  enabled := hv.enabled
  sentinel := hv.sentinel
  zero_offset := hv.zero_offset
  no_high := hv.no_high
  inval_phase := hv.inval_phase
  mem_wf := hv.mem_wf

theorem EngineInv.sampled {v t : State} {l : Stage} (hv : EngineInv v) (hq : v.seq = .poll l)
    (h : sampled l v = .next t) : EngineInv t := by
  obtain ⟨-, hb⟩ | ⟨-, -, hb⟩ | ⟨-, hlast, rfl⟩ := sampled_cases h
  · exact (hv.branchPoint_cached hq).branched (branchOf_branches hb).1
  · exact (hv.branchPoint_counted hq).branched (branchOf_branches hb).1
  · exact hv.counted hq hlast

/-- Settles O39: each of the engine's steps keeps the invariant, and so does reset. -/
theorem stepKeepsInvariant : Obligations.StepKeepsInvariant := by
  intro s t hs h
  obtain ⟨-, -, rfl⟩ | ⟨-, -, rfl⟩ | ⟨-, hq, -, rest, i, hi, he⟩ | ⟨hr, q, hq, rfl⟩ | ⟨-, l, hq, hl⟩ | ⟨-, -, rfl⟩ :=
    step_cases h
  · exact hs.resetBlock
  · exact hs.beginStep
  · have hs' : EngineInv { beginStep s with program := rest } :=
      hs.of_sameControl ⟨rfl, rfl, rfl, rfl, rfl, rfl, rfl, rfl, rfl, rfl, rfl, rfl⟩ hs.mem_wf
    exact hs'.accepted (hs.idle_of_ready hq) (accepted_cases hi he)
  · exact hs.issued hr hq
  · exact hs.beginStep.envStep.sampled (by simpa using hq) hl
  · exact hs.beginStep.respond

end Sys2Proof.Machine
end

section
/-! The bus trace over a step; with it the statements of 41_primitives.md R96 and 60_exceptions.md R162 on the order of the
primitives and the one stop are settled. -/

namespace Sys2Proof.Machine

/-! ### The item a label adds to the trace -/

/-- The item that the primitive of a label adds to the bus trace, issued from the label's own phase. -/
def eventOf (a : AddrCfg) (off : Offset) : Target → BusEvent
  | .stage .s1 => .start
  | .stage .s2 => .write (selW a off)
  | .stage .s3 => .write (addrHi off)
  | .stage .s4 => .write (addrLo off)
  | .stage .s5 => .restart
  | .stage .s6 => .write (selR a off)
  | .stage .s7 => .read
  | .stage .vf => .write fillByte
  | .cleanup => .stop

theorem busEvent_primWord (a : AddrCfg) (off : Offset) (q : Target) :
    busEvent (primWord a off q) (phaseOf q) = eventOf a off q := by
  cases q with
  | cleanup => simp [busEvent, primWord, eventOf]
  | stage l => cases l <;> simp [busEvent, primWord, eventOf, phaseOf]

theorem issued_trace (q : Target) (s : State) : (issued q s).trace = s.trace ++ [eventOf s.cfg.addr s.off q] := by
  simp [issued, busEvent_primWord]

theorem eventOf_eq_stop {a : AddrCfg} {off : Offset} {q : Target} : eventOf a off q = .stop ↔ q = .cleanup := by
  cases q with
  | cleanup => simp [eventOf]
  | stage l => cases l <;> simp [eventOf]

theorem eventOf_eq_read {a : AddrCfg} {off : Offset} {q : Target} : eventOf a off q = .read ↔ q = .stage .s7 := by
  cases q with
  | cleanup => simp [eventOf]
  | stage l => cases l <;> simp [eventOf]

theorem phaseOf_eq_stopped {q : Target} : phaseOf q = .stopped ↔ q = .cleanup := by
  cases q with
  | cleanup => simp [phaseOf]
  | stage l => cases l <;> simp [phaseOf]

/-- Nothing is issued once `phase` is `Stopped` (10_state.md R22). -/
theorem EngineInv.not_stopped_of_issue {s : State} {q : Target} (hs : EngineInv s) (hq : s.seq = .issue q) :
    s.phase ≠ .stopped := by
  intro hp
  have h := hs.edge_of_issue hq
  rw [hp] at h
  cases q with
  | cleanup => cases h
  | stage l => cases l <;> cases h

/-! ### The trace invariant over the engine's steps -/

/-- The trace invariant asks nothing of a machine that runs no operation and no `INIT`. -/
theorem traceInv_of_none {s : State} (h : s.op = .none) : TraceInv s := by
  have ht : ¬ transacting s = true := by simp [transacting, h]
  exact ⟨fun h => absurd h ht, fun h => absurd h ht, fun h => absurd h ht, fun h => absurd h ht, fun h => absurd h ht,
    fun h => absurd h ht, fun hi => by simp [h] at hi⟩

/-- At acceptance the trace is empty and step 1, or the response of `INIT`, is next. -/
theorem traceInv_accepted {s : State} (ht : s.trace = []) (hp : s.phase = .idle)
    (hq : transacting s = true → s.seq = toStage .s1) : TraceInv s where
  first_start _ := .inl ht
  one_stop _ := by simp [ht, hp]
  stop_last _ h := by simp [hp] at h
  rx_after _ pre post h := by simp [ht] at h
  sel_read hop h := by simp [hq hop] at h
  empty_first hop _ := hq hop
  init_empty _ := ht

theorem TraceInv.of_sameControl {s t : State} (hs : TraceInv s) (h : SameControl s t) (ht : t.trace = s.trace) :
    TraceInv t where
  first_start := by simpa only [h.transacting, ht] using hs.first_start
  one_stop := by simpa only [h.transacting, ht, h.phase] using hs.one_stop
  stop_last := by simpa only [h.transacting, ht, h.phase] using hs.stop_last
  rx_after := by simpa only [h.transacting, ht, h.cfg, h.off] using hs.rx_after
  sel_read := by simpa only [h.transacting, ht, h.seq, h.cfg, h.off] using hs.sel_read
  empty_first := by simpa only [h.transacting, ht, h.seq] using hs.empty_first
  init_empty := by simpa only [h.op, ht] using hs.init_empty

theorem TraceInv.beginStep {s : State} (hs : TraceInv s) : TraceInv (beginStep s) :=
  hs.of_sameControl (sameControl_beginStep s) rfl

theorem TraceInv.envStep {s : State} (hs : TraceInv s) : TraceInv (envStep s) :=
  hs.of_sameControl (sameControl_envStep s) (envStep_trace s)

/-- A reception in a trace one item longer is one of before, or the new item. -/
theorem read_in_append_singleton {tr pre post : List BusEvent} {e : BusEvent} (h : tr ++ [e] = pre ++ .read :: post) :
    (e = .read ∧ pre = tr) ∨ ∃ post', tr = pre ++ .read :: post' := by
  obtain rfl | ⟨post', e', rfl⟩ := List.eq_nil_or_concat post
  · obtain ⟨h1, h2⟩ := List.append_inj' h rfl
    exact .inl ⟨by simpa using h2, h1.symm⟩
  · refine .inr ⟨post', ?_⟩
    have h' : tr ++ [e] = (pre ++ .read :: post') ++ [e'] := by simpa using h
    exact (List.append_inj' h' rfl).1

theorem TraceInv.issued {s : State} {q : Target} (hi : EngineInv s) (hs : TraceInv s) (hq : s.seq = .issue q) :
    TraceInv (issued q s) where
  first_start _ := by
    refine .inr ?_
    rw [issued_trace]
    obtain hnil | hhead := hs.first_start (hi.transacting_of_issue hq)
    · have h1 : q = .stage .s1 := by
        simpa [hq] using hs.empty_first (hi.transacting_of_issue hq) hnil
      simp [hnil, h1, eventOf]
    · simp [List.head?_append, hhead]
  one_stop _ := by
    have hcount := hs.one_stop (hi.transacting_of_issue hq)
    rw [if_neg (hi.not_stopped_of_issue hq)] at hcount
    have hp : (Machine.issued q s).phase = phaseOf q := rfl
    rw [issued_trace, List.count_append, hcount, hp]
    by_cases hc : q = .cleanup
    · rw [if_pos (phaseOf_eq_stopped.mpr hc), eventOf_eq_stop.mpr hc]
      rfl
    · rw [if_neg (mt phaseOf_eq_stopped.mp hc), List.count_singleton, if_neg]
      simpa using mt eventOf_eq_stop.mp hc
  stop_last _ hp := by
    have hc : q = .cleanup := phaseOf_eq_stopped.mp hp
    simp [issued_trace, hc, eventOf]
  rx_after _ pre post h := by
    rw [issued_trace] at h
    obtain ⟨he, rfl⟩ | ⟨post', hpre⟩ := read_in_append_singleton h
    · rw [eventOf_eq_read.mp he] at hq
      exact hs.sel_read (hi.transacting_of_issue hq) (.inr hq)
    · exact hs.rx_after (hi.transacting_of_issue hq) pre post' hpre
  sel_read _ h := by
    have h6 : q = .stage .s6 := by
      have hseq : (Machine.issued q s).seq = afterIssue q := rfl
      rw [hseq] at h
      cases q with
      | cleanup => simp [afterIssue] at h
      | stage l => simpa [afterIssue] using h
    rw [issued_trace, h6, List.getLast?_concat]
    rfl
  empty_first _ h := by simp [issued_trace] at h
  init_empty hop := by
    have ht := hi.transacting_of_issue hq
    have hop' : s.op = .init := hop
    simp [transacting, hop'] at ht

/-- Step 7 is reached from step 6 alone. -/
theorem branches_to_s7 {d : Byte} {l : Stage} {r : PhaseResult} {s t : State} (h : Branches d l r s t)
    (hq : t.seq = toStage .s7) : l = .s6 := by
  cases h with
  | readSelected => rfl
  | startTimeout =>
    simp only [raiseTo, goto_seq] at hq
    split at hq <;> cases hq
  | busy =>
    unfold busyRetry at hq
    split at hq <;> cases hq
  | filled =>
    simp only [fillNext, goto_seq] at hq
    split at hq <;> cases hq
  | _ => cases hq

/-- What a sample keeps of the state it looks at, and where it can lead. -/
structure SampleKeeps (l : Stage) (v t : State) : Prop where
  cfg       : t.cfg = v.cfg
  op        : t.op = v.op
  off       : t.off = v.off
  phase     : t.phase = v.phase
  trace     : t.trace = v.trace
  ctlDiv    : t.ctlDiv = v.ctlDiv
  ctlEn     : t.ctlEn = v.ctlEn
  rst       : t.rst = v.rst
  program   : t.program = v.program
  script    : t.script = v.script
  rspValid  : t.rspValid = v.rspValid
  not_ready : v.seq ≠ .ready → t.seq ≠ .ready
  to_s7     : v.seq = .poll l → t.seq = toStage .s7 → l = .s6
  same_poll : ∀ l', v.seq = .poll l → t.seq = .poll l' → l = l'

theorem SampleKeeps.of_branches {d : Byte} {l : Stage} {r : PhaseResult} {v u t : State}
    (hu : u = cached v ∨ u = counted v) (h : Branches d l r u t) : SampleKeeps l v t := by
  have hk := branches_kept h
  obtain ⟨hdiv, hen, -⟩ := hk.ctl
  obtain ⟨hrst, hprog, hrsp, -⟩ := hk.ports
  obtain ⟨-, -, hscript, -⟩ := hk.outside
  have hq := hk.not_ready
  have hp := hk.not_poll
  obtain rfl | rfl := hu <;>
    exact ⟨hk.cfg, hk.op, hk.off, hk.phase, hk.trace, hdiv, hen, hrst, hprog, hscript, hrsp, fun _ => hq,
      fun _ => branches_to_s7 h, fun l' _ h' => absurd h' (hp l')⟩

theorem sampled_sampleKeeps {l : Stage} {v t : State} (h : sampled l v = .next t) : SampleKeeps l v t := by
  obtain ⟨-, hb⟩ | ⟨-, -, hb⟩ | ⟨-, -, rfl⟩ := sampled_cases h
  · exact .of_branches (.inl rfl) (branchOf_branches hb).1
  · exact .of_branches (.inr rfl) (branchOf_branches hb).1
  · exact ⟨rfl, rfl, rfl, rfl, rfl, rfl, rfl, rfl, rfl, rfl, rfl, id, fun hv h => by simp [hv] at h,
      fun l' hv h => by simpa [hv] using h⟩

theorem TraceInv.sampled {l : Stage} {v t : State} (hi : EngineInv v) (hv : TraceInv v) (hq : v.seq = .poll l)
    (h : sampled l v = .next t) : TraceInv t := by
  have hk := sampled_sampleKeeps h
  have ht : transacting v = true := hi.transacting_of_poll hq
  have hne : v.trace ≠ [] := fun hnil => by simpa [hq] using hv.empty_first ht hnil
  refine ⟨fun _ => ?_, fun _ => ?_, fun _ hp => ?_, fun _ pre post hpre => ?_, fun _ hsel => ?_, fun _ hnil => ?_,
    fun hop => ?_⟩
  · rw [hk.trace]
    exact hv.first_start ht
  · rw [hk.trace, hk.phase]
    exact hv.one_stop ht
  · rw [hk.trace]
    exact hv.stop_last ht (hk.phase ▸ hp)
  · rw [hk.cfg, hk.off]
    exact hv.rx_after ht pre post (hk.trace ▸ hpre)
  · rw [hk.trace, hk.cfg, hk.off]
    refine hv.sel_read ht (.inl ?_)
    obtain h6 | h7 := hsel
    · rw [hq, hk.same_poll _ hq h6]
    · rw [hq, hk.to_s7 hq h7]
  · exact absurd (hk.trace ▸ hnil) hne
  · rw [hk.op] at hop
    simp [transacting, hop] at ht

/-- Settles O40: an issue adds the item of its label, which the sequencer and `phase` of the invariant tell; acceptance
empties the trace; a sample leaves it. -/
theorem stepKeepsTraceOrder : Obligations.StepKeepsTraceOrder := by
  intro s t hi hs h
  obtain ⟨-, -, rfl⟩ | ⟨-, -, rfl⟩ | ⟨-, hq, -, rest, i, hcmd, he⟩ | ⟨-, q, hq, rfl⟩ | ⟨-, l, hq, hl⟩ | ⟨-, -, rfl⟩ :=
    step_cases h
  · exact traceInv_of_none rfl
  · exact hs.beginStep
  · have hp : s.phase = .idle := hi.idle_of_ready hq
    obtain rfl | ⟨-, off, rfl⟩ | ⟨-, rfl⟩ := accepted_cases hcmd he
    · exact traceInv_accepted rfl hp nofun
    · exact traceInv_accepted rfl hp fun _ => rfl
    · exact traceInv_accepted rfl hp fun _ => rfl
  · exact TraceInv.issued hi hs hq
  · exact TraceInv.sampled hi.beginStep.envStep hs.beginStep.envStep (by simpa using hq) hl
  · exact traceInv_of_none rfl

/-- Settles O41: in the invariant a response after a confirmed start comes from `Stopped`, where the trace invariant has the
one stop. -/
theorem transactionEndsWithOneStop : Obligations.TransactionEndsWithOneStop := by
  intro s hi hs hq ht
  have hcount := hs.one_stop ht
  have hend : s.phase = .stopped ∨ (s.phase = .startPending ∧ s.started = false) := by
    have h := hi.seq_ok
    simp only [seqInv, hq] at h
    obtain ⟨hop, -⟩ | ⟨-, h⟩ := h
    · simp [transacting, hop] at ht
    · exact h
  refine ⟨fun hst => ?_, fun _ hp => by rwa [if_neg hp] at hcount⟩
  have hp : s.phase = .stopped := by
    obtain hp | ⟨-, hns⟩ := hend
    · exact hp
    · exact hst.resolve_left (by simp [hns])
  exact ⟨by rwa [if_pos hp] at hcount, hs.stop_last ht hp⟩

end Sys2Proof.Machine
end

section
/-! The count of primitives over a step; with it the bound of 42_read_byte.md R121 and 43_invalidate.md R140 is settled. -/

namespace Sys2Proof.Machine

/-- The primitives an operation has issued when a stage is about to issue, its retries and fill bytes counted. -/
def issuedAt (s : State) (l : Stage) : Nat :=
  2 * s.retryCnt + issuedBefore s.cfg.addr l + (if l = .vf then s.fillCnt else 0)

theorem addrBytes_of_addr16 {a : AddrCfg} (h : addrMode a = .addr16) : addrBytes a = 2 := by
  cases a with
  | addr16 cls => rfl
  | addr8f cls => cases h

theorem addrBytes_of_addr8f {a : AddrCfg} (h : addrMode a = .addr8f) : addrBytes a = 1 := by
  cases a with
  | addr16 cls => cases h
  | addr8f cls => rfl

theorem addr16_of_hasStage_s3 {a : AddrCfg} {o : Op} (h : hasStage a o .s3 = true) : addrMode a = .addr16 := by
  cases o with
  | read | inval => simpa [hasStage] using h
  | init | none => cases h

/-- A step of the operation leaves room for its own primitive and the stop (42_read_byte.md R121, 43_invalidate.md R140). -/
theorem StageInv.issuedAt_le {s : State} {l : Stage} (hl : StageInv s l) :
    issuedAt s l + 2 ≤ primitiveBound s.cfg s.op := by
  have hr := hl.retry_left
  have hst := hl.has_stage
  have hfill := hl.fill_left
  have h1 : 1 ≤ addrBytes s.cfg.addr := by cases s.cfg.addr <;> simp [addrBytes]
  simp only [issuedAt, primitiveBound]
  simp only [fillSize] at hfill ⊢
  cases hop : s.op with
  | init | none => simp [hop, hasStage] at hst
  | read =>
    rw [hop] at hst
    cases l <;> simp [issuedBefore, hasStage] at hst ⊢ <;> omega
  | inval =>
    rw [hop] at hst
    cases l <;> simp [issuedBefore, hasStage] at hst hfill ⊢ <;> omega

/-- A branch only adds errors to the record. -/
theorem branches_errors {d : Byte} {l : Stage} {r : PhaseResult} {s t : State} (h : Branches d l r s t) :
    ∃ more, t.errors = s.errors ++ more := by
  cases h with
  | busy =>
    by_cases hlt : s.retryCnt + 1 < s.cfg.retryMax.val
    · exact ⟨_, (busyRetry_below hlt).2⟩
    · exact ⟨_, (busyRetry_at_ceiling hlt).2⟩
  | startTimeout | refusedRead | rejected | lost _ | unanticipated _ | timedOut _ =>
    exact ⟨_, raise_errors _ _ _⟩
  | _ => exact ⟨[], (List.append_nil _).symm⟩

theorem noArbLoss_of_append {s t : State} {more : List Raised} (h : noArbLoss t) (he : t.errors = s.errors ++ more) :
    noArbLoss s := fun e hmem => h e (by simp [he, hmem])

/-- Without arbitration loss, a branch to another step has issued one primitive more than its own step had. -/
theorem branches_issuedAt {d : Byte} {l l' : Stage} {r : PhaseResult} {s t : State} (h : Branches d l r s t)
    (hl : hasStage s.cfg.addr s.op l = true) (hno : noArbLoss t) (hq : t.seq = toStage l') :
    issuedAt t l' = issuedAt s l + 1 := by
  cases h with
  | confirmed | toHigh _ =>
    cases hq
    simp [issuedAt, issuedBefore]
  | restarted | readSelected =>
    cases hq
    simp [issuedAt, issuedBefore]
    omega
  | toLow ha =>
    cases hq
    simp [issuedAt, issuedBefore, addrBytes_of_addr8f ha]
  | highSent =>
    cases hq
    simp [issuedAt, issuedBefore, addrBytes_of_addr16 (addr16_of_hasStage_s3 hl)]
  | lowSent _ | fillEntered _ =>
    cases hq
    simp [issuedAt, issuedBefore, enterFill]
    omega
  | busy =>
    by_cases hlt : s.retryCnt + 1 < s.cfg.retryMax.val
    · rw [(busyRetry_below hlt).1] at hq
      cases hq
      simp [issuedAt, issuedBefore]
      omega
    · rw [(busyRetry_at_ceiling hlt).1] at hq
      cases hq
  | filled =>
    simp only [fillNext, goto_seq] at hq
    split at hq <;> cases hq
    simp [issuedAt, issuedBefore, fillNext]
    omega
  | startTimeout =>
    simp only [raiseTo, goto_seq] at hq
    split at hq <;> cases hq
  | lost _ => exact absurd rfl (hno ⟨.arbLost, .plain, s.phase⟩ (by simp [restart, raiseTo]))
  | refusedRead | captured _ | rejected | unanticipated _ | timedOut _ => cases hq

/-! ### The count over the engine's steps -/

/-- What the count says, by what the sequencer is about to do. -/
def CountAt (s : State) : Prop :=
  match s.seq with
  | .issue (.stage l) => s.trace.length = issuedAt s l
  | .poll l => s.trace.length = issuedAt s l + 1
  | .issue .cleanup => s.trace.length + 1 ≤ primitiveBound s.cfg s.op
  | .respond => s.trace.length ≤ primitiveBound s.cfg s.op
  | .ready => True

theorem countInv_iff {s : State} : CountInv s ↔ (transacting s = true → noArbLoss s → CountAt s) := Iff.rfl

theorem CountInv.of_sameControl {s t : State} (hs : CountInv s) (h : SameControl s t) (ht : t.trace = s.trace)
    (he : t.errors = s.errors) : CountInv t := by
  rw [countInv_iff] at hs ⊢
  simpa only [CountAt, issuedAt, noArbLoss, h.transacting, h.seq, h.retryCnt, h.fillCnt, h.cfg, h.op, ht, he] using hs

theorem countAt_issued {s : State} {q : Target} (hq : s.seq = .issue q) (hs : CountAt s) : CountAt (issued q s) := by
  simp only [CountAt, hq] at hs
  have hlen : (issued q s).trace.length = s.trace.length + 1 := by simp [issued_trace]
  cases q with
  | cleanup =>
    have h : (issued .cleanup s).trace.length ≤ primitiveBound s.cfg s.op := by rwa [hlen]
    exact h
  | stage l =>
    have h : (issued (.stage l) s).trace.length = issuedAt s l + 1 := by rw [hlen, hs]
    exact h

theorem countAt_branched {d : Byte} {l : Stage} {r : PhaseResult} {u t : State} (hl : StageInv u l)
    (hu : u.trace.length = issuedAt u l + 1) (h : Branches d l r u t) (hno : noArbLoss t) : CountAt t := by
  have hk := branches_kept h
  have hroom := hl.issuedAt_le
  cases hq : t.seq with
  | ready => exact absurd hq hk.not_ready
  | poll l' => exact absurd hq (hk.not_poll l')
  | issue q =>
    cases q with
    | stage l' =>
      simp only [CountAt, hq, hk.trace]
      rw [hu, branches_issuedAt h hl.has_stage hno hq]
    | cleanup =>
      simp only [CountAt, hq, hk.trace, hk.cfg, hk.op]
      omega
  | respond =>
    simp only [CountAt, hq, hk.trace, hk.cfg, hk.op]
    omega

theorem CountInv.sampled {l : Stage} {v t : State} (hi : EngineInv v) (hv : CountInv v) (hq : v.seq = .poll l)
    (h : sampled l v = .next t) : CountInv t := by
  have hpolled (hno : noArbLoss v) : v.trace.length = issuedAt v l + 1 := by
    have hc : CountAt v := hv (hi.transacting_of_poll hq) hno
    simpa only [CountAt, hq] using hc
  rw [countInv_iff]
  intro _ hno
  obtain ⟨-, hb⟩ | ⟨-, -, hb⟩ | ⟨-, -, rfl⟩ := sampled_cases h
  · have hb := (branchOf_branches hb).1
    obtain ⟨more, he⟩ := branches_errors hb
    have hu := hpolled (noArbLoss_of_append hno he)
    exact countAt_branched (hi.branchPoint_cached hq).stage hu hb hno
  · have hb := (branchOf_branches hb).1
    obtain ⟨more, he⟩ := branches_errors hb
    have hu := hpolled (noArbLoss_of_append hno he)
    exact countAt_branched (hi.branchPoint_counted hq).stage hu hb hno
  · simp only [CountAt, counted_seq, hq]
    exact hpolled hno

/-- The count is within the bound, whatever the sequencer is about to do. -/
theorem length_le_primitiveBound {s : State} (hi : EngineInv s) (ht : transacting s = true) (hc : CountAt s) :
    s.trace.length ≤ primitiveBound s.cfg s.op := by
  cases hq : s.seq with
  | ready => simp [transacting, hi.none_of_ready hq] at ht
  | respond => simpa only [CountAt, hq] using hc
  | poll l =>
    have hroom := (hi.stageInv_of_poll hq).issuedAt_le
    simp only [CountAt, hq] at hc
    omega
  | issue q =>
    cases q with
    | cleanup =>
      simp only [CountAt, hq] at hc
      omega
    | stage l =>
      have hroom := (hi.stageInv_of_issue hq).issuedAt_le
      simp only [CountAt, hq] at hc
      omega

/-- Settles O42: an issue adds one to the count and a branch moves on by one; each step leaves room for its own primitive and
the stop. -/
theorem stepKeepsPrimitiveBound : Obligations.StepKeepsPrimitiveBound := by
  refine ⟨fun s t hi hs h => ?_, fun s hi hs ht hno => length_le_primitiveBound hi ht (hs ht hno)⟩
  obtain ⟨-, -, rfl⟩ | ⟨-, -, rfl⟩ | ⟨-, hq, -, rest, i, hcmd, he⟩ | ⟨-, q, hq, rfl⟩ | ⟨-, l, hq, hl⟩ | ⟨-, -, rfl⟩ :=
    step_cases h
  · exact nofun
  · exact hs.of_sameControl (sameControl_beginStep s) rfl rfl
  · obtain rfl | ⟨-, off, rfl⟩ | ⟨-, rfl⟩ := accepted_cases hcmd he
    · exact nofun
    · exact fun _ _ => rfl
    · exact fun _ _ => rfl
  · rw [countInv_iff]
    exact fun _ hno => countAt_issued hq (hs (hi.transacting_of_issue hq) hno)
  · have hv : CountInv (envStep (beginStep s)) :=
      (hs.of_sameControl (sameControl_beginStep s) rfl rfl).of_sameControl (sameControl_envStep _) (by simp) (by simp)
    exact hv.sampled hi.beginStep.envStep (by simpa using hq) hl
  · exact nofun

end Sys2Proof.Machine
end

section
/-! Which registers a step writes, and when; with it the statements on the writers of the registers, on the edges of `phase`,
on cleanup and the response, and on what is refused are settled. -/

namespace Sys2Proof.Machine

/-! ### A sample, with what it has seen -/

/-- Everything a sample of a polled step can have done, with what it has seen. -/
theorem polled_cases {s t : State} {l : Stage} (hr : s.rst = false) (hq : s.seq = .poll l)
    (h : sampled l (envStep (beginStep s)) = .next t) : ∃ v, v = envStep (beginStep s) ∧
    ((∃ c, SeesClass s l c v ∧ Branches v.ctlData l (.done c) (cached v) t) ∨
      (SeesTimeout s l v ∧ Branches v.ctlData l .timeout (counted v) t) ∨ t = counted v) := by
  refine ⟨_, rfl, ?_⟩
  obtain ⟨hd, hb⟩ | ⟨hd, hlast, hb⟩ | ⟨-, -, rfl⟩ := sampled_cases h
  · exact .inl ⟨_, ⟨⟨hr, hq, rfl⟩, hd, rfl⟩, (branchOf_branches hb).1⟩
  · exact .inr (.inl ⟨⟨⟨hr, hq, rfl⟩, hd, hlast⟩, (branchOf_branches hb).1⟩)
  · exact .inr (.inr rfl)

/-! ### The registers a step writes -/

/-- What a step without reset writes of the registers of 10_state.md section 2 and 5, and when. -/
structure StepWrites (s t : State) : Prop where
  cfg        : t.cfg = s.cfg
  rst        : t.rst = s.rst
  enable     : s.ctlEn = true → t.ctlEn = true
  divider    : t.ctlDiv = s.ctlDiv ∨ (s.seq = .ready ∧ t.op = .init)
  off        : t.off = s.off ∨ (s.seq = .ready ∧ (t.op = .read ∨ t.op = .inval))
  result     : t.result = s.result ∨ (s.seq = .ready ∧ t.op = .read) ∨ (s.op = .read ∧ ∃ v, SeesClass s .s7 .success v)
  retryCnt   : t.retryCnt = s.retryCnt ∨ (s.seq = .ready ∧ t.retryCnt = 0) ∨
    (t.retryCnt = s.retryCnt + 1 ∧ ∃ v, SeesClass s .s2 .notReady v)
  lastStatus : t.lastStatus = s.lastStatus ∨ ∃ l c v, SeesClass s l c v
  rspValid   : t.rspValid = true ↔ s.seq = .respond
  no_stop    : t.seq = .respond → t.op = .init ∨ s.seq = .issue .cleanup ∨ ∃ v, SeesTimeout s .s1 v ∧ v.started = false

theorem stepWrites_accepted {s t : State} (hq : s.seq = .ready) (rest : List CmdWord)
    (h : t = initAccepted { beginStep s with program := rest } ∨
      (s.ctlEn = true ∧ ∃ off, t = readAccepted off { beginStep s with program := rest }) ∨
      (s.ctlEn = true ∧ t = invalAccepted { beginStep s with program := rest })) : StepWrites s t := by
  have hrsp (hv : t.rspValid = false) : t.rspValid = true ↔ s.seq = .respond := by simp [hv, hq]
  obtain rfl | ⟨-, off, rfl⟩ | ⟨-, rfl⟩ := h
  · exact ⟨rfl, rfl, fun _ => rfl, .inr ⟨hq, rfl⟩, .inl rfl, .inl rfl, .inl rfl, .inl rfl, hrsp rfl, fun _ => .inl rfl⟩
  · exact ⟨rfl, rfl, id, .inl rfl, .inr ⟨hq, .inl rfl⟩, .inr (.inl ⟨hq, rfl⟩), .inr (.inl ⟨hq, rfl⟩), .inl rfl,
      hrsp rfl, nofun⟩
  · exact ⟨rfl, rfl, id, .inl rfl, .inr ⟨hq, .inr rfl⟩, .inl rfl, .inr (.inl ⟨hq, rfl⟩), .inl rfl, hrsp rfl, nofun⟩

theorem stepWrites_polled {s t : State} {l : Stage} (hr : s.rst = false) (hq : s.seq = .poll l)
    (h : sampled l (envStep (beginStep s)) = .next t) : StepWrites s t := by
  have hk := sampled_sampleKeeps h
  have hcfg : t.cfg = s.cfg := by simp [hk.cfg]
  have hrst : t.rst = s.rst := by simp [hk.rst]
  have hen : s.ctlEn = true → t.ctlEn = true := by simp [hk.ctlEn]
  have hdiv : t.ctlDiv = s.ctlDiv := by simp [hk.ctlDiv]
  have hoff : t.off = s.off := by simp [hk.off]
  have hrsp : t.rspValid = true ↔ s.seq = .respond := by simp [hk.rspValid, hq]
  obtain ⟨v, hv, ⟨c, hsee, hb⟩ | ⟨hsee, hb⟩ | rfl⟩ := polled_cases hr hq h
  · have hkept := branches_kept hb
    refine ⟨hcfg, hrst, hen, .inl hdiv, .inl hoff, ?_, ?_, .inr ⟨l, c, v, hsee⟩, hrsp, fun hend => ?_⟩
    · obtain hres | ⟨rfl, hc, hop⟩ := hkept.result
      · exact .inl (by simp [hres, hv])
      · obtain rfl : c = .success := by simpa using hc
        exact .inr (.inr ⟨by simpa [hv] using hop, v, hsee⟩)
    · obtain hret | ⟨rfl, hc, hret⟩ := hkept.retryCnt
      · exact .inl (by simp [hret, hv])
      · obtain rfl : c = .notReady := by simpa using hc
        exact .inr (.inr ⟨by simp [hret, hv], v, hsee⟩)
    · obtain ⟨-, hc, -⟩ := hkept.no_stop hend
      cases hc
  · have hkept := branches_kept hb
    refine ⟨hcfg, hrst, hen, .inl hdiv, .inl hoff, .inl ?_, .inl ?_, .inl ?_, hrsp, fun hend => ?_⟩
    · simp [hkept.result.resolve_right nofun, hv]
    · simp [hkept.retryCnt.resolve_right nofun, hv]
    · simp [hkept.lastStatus, hv]
    · obtain ⟨rfl, -, hst⟩ := hkept.no_stop hend
      exact .inr (.inr ⟨v, hsee, hst⟩)
  · exact ⟨hcfg, hrst, hen, .inl hdiv, .inl hoff, .inl (by simp [hv]), .inl (by simp [hv]), .inl (by simp [hv]), hrsp,
      fun hend => by simp [hv, hq] at hend⟩

theorem step_writes {s t : State} (hr : s.rst = false) (h : step s = .next t) : StepWrites s t := by
  obtain ⟨hr', -⟩ | ⟨-, hq, rfl⟩ | ⟨-, hq, -, rest, i, hi, he⟩ | ⟨-, q, hq, rfl⟩ | ⟨-, l, hq, hl⟩ | ⟨-, hq, rfl⟩ :=
    step_cases h
  · simp [hr] at hr'
  · exact ⟨rfl, rfl, id, .inl rfl, .inl rfl, .inl rfl, .inl rfl, .inl rfl, by simp [hq], fun hend => by simp [hq] at hend⟩
  · exact stepWrites_accepted hq rest (accepted_cases hi he)
  · refine ⟨rfl, rfl, id, .inl rfl, .inl rfl, .inl rfl, .inl rfl, .inl rfl, by simp [hq], fun hend => .inr (.inl ?_)⟩
    cases q with
    | cleanup => exact hq
    | stage l => cases hend
  · exact stepWrites_polled hr hq hl
  · exact ⟨rfl, rfl, id, .inl rfl, .inl rfl, .inl rfl, .inl rfl, .inl rfl, by simp [hq], nofun⟩

/-- Settles O45: reset keeps the parameters, and every other step does. -/
theorem parametersNeverChange : Obligations.ParametersNeverChange := by
  intro s t h
  cases hr : s.rst with
  | false => exact (step_writes hr h).cfg
  | true =>
    obtain ⟨-, -, rfl⟩ | ⟨hr', -⟩ | ⟨hr', -⟩ | ⟨hr', -⟩ | ⟨hr', -⟩ | ⟨hr', -⟩ := step_cases h
    · rfl
    all_goals simp [hr] at hr'

/-- Settles O46, by the writers of `CTL_EN` and `CTL_DIV`. -/
theorem enableAndDividerPersist : Obligations.EnableAndDividerPersist := fun _ _ hr h =>
  have hw := step_writes hr h
  ⟨hw.enable, hw.divider.resolve_left⟩

/-- Settles O47, by the writers of `off` and `result`. -/
theorem offsetAndResultWriters : Obligations.OffsetAndResultWriters := fun _ _ hr h =>
  have hw := step_writes hr h
  ⟨hw.off.resolve_left, hw.result.resolve_left⟩

/-- Settles O48, by the writers of `retry_cnt`. -/
theorem retryCounterWriters : Obligations.RetryCounterWriters := fun _ _ hr h =>
  (step_writes hr h).retryCnt.resolve_left

/-- Settles O25: a completed sample caches its status before it branches, and no branch writes `LAST_STATUS`. -/
theorem lastStatusWrittenOnlyAtCompletion : Obligations.LastStatusWrittenOnlyAtCompletion := by
  refine ⟨fun s v t l c h hstep => ?_, fun s t hr h => (step_writes hr h).lastStatus.resolve_left⟩
  rw [step_of_poll h.no_reset h.polling, ← h.view] at hstep
  obtain ⟨-, hb⟩ | ⟨hd, -⟩ | ⟨hd, -⟩ := sampled_cases hstep
  · exact (branches_kept (branchOf_branches hb).1).lastStatus
  all_goals simp [h.done] at hd

/-! ### Cleanup and the response -/

/-- Settles O34: cleanup is an issue, the response is one step, and the way to the response is the writers' last clause. -/
theorem cleanupStopsThenResponds : Obligations.CleanupStopsThenResponds := by
  refine ⟨fun s hr hq => ⟨issued .cleanup s, step_of_issue hr hq, rfl, ?_, ?_, rfl, rfl, rfl, rfl⟩,
    fun s hr hq => ⟨respond (beginStep s), step_of_respond hr hq, rfl, ?_, rfl, rfl, rfl, rfl, rfl, rfl, rfl, rfl, rfl, rfl,
      rfl, rfl, rfl, rfl, rfl, ?_, rfl, rfl, rfl, rfl, rfl, rfl, rfl, rfl, rfl, fun _ => rfl⟩,
    fun s t hr h hq hop => ((step_writes hr h).no_stop hq).resolve_left hop⟩
  · exact issued_trace .cleanup s
  · exact kind_primWord_eq_stop.mpr rfl
  · intro hop
    simp [hop]
  · intro hrec
    simp [hrec]

/-- Settles O35: `rsp_valid` ends with every step and the response alone sets it; an issue and a sample go on with the
operation. -/
theorem rspValidOnlyAfterResponseStep : Obligations.RspValidOnlyAfterResponseStep := by
  intro s t hi hr h
  refine ⟨(step_writes hr h).rspValid, fun hq => ?_, fun hready hrespond => ?_⟩
  · rw [step_of_respond hr hq] at h
    cases h
    exact ⟨rfl, rfl⟩
  · have htr {o : Op} (ho : o = s.op) (ht : transacting s = true) : o ≠ .none := by
      rintro rfl
      simp [transacting, ← ho] at ht
    cases hq : s.seq with
    | ready => exact absurd hq hready
    | respond => exact absurd hq hrespond
    | issue q =>
      rw [step_of_issue hr hq] at h
      cases h
      exact ⟨by cases q <;> simp [afterIssue], rfl, htr rfl (hi.transacting_of_issue hq)⟩
    | poll l =>
      rw [step_of_poll hr hq] at h
      have hk := sampled_sampleKeeps h
      have hop : t.op = s.op := by simp [hk.op]
      exact ⟨hk.not_ready (by simp [hq]), hop, htr hop (hi.transacting_of_poll hq)⟩

/-! ### The edges of `phase` -/

/-- Settles O43: an issue moves `phase` along the edge the invariant has for its label, and the response back to `Idle`. -/
theorem phaseFollowsItsEdges : Obligations.PhaseFollowsItsEdges := by
  intro s t hi hr h
  obtain ⟨hr', -⟩ | ⟨-, -, rfl⟩ | ⟨-, -, -, rest, i, hcmd, he⟩ | ⟨-, q, hq, rfl⟩ | ⟨-, l, -, hl⟩ | ⟨-, hq, rfl⟩ :=
    step_cases h
  · simp [hr] at hr'
  · exact .inl rfl
  · exact .inl (exec_accepted hcmd he).1
  · exact .inr (hi.edge_of_issue hq)
  · exact .inl (by simp [(sampled_sampleKeeps hl).phase])
  · have hend := hi.seq_ok
    simp only [seqInv, hq] at hend
    obtain ⟨-, hp⟩ | ⟨-, hp | ⟨hp, -⟩⟩ := hend
    · exact .inl (by simp [hp])
    · exact .inr (by simp [hp, phaseEdge])
    · exact .inr (by simp [hp, phaseEdge])

/-! ### What is refused -/

theorem sampled_next {l : Stage} {v : State} (h : hasStage v.cfg.addr v.op l = true) : ∃ t, sampled l v = .next t := by
  have hbranch (r : PhaseResult) (u : State) (hu : hasStage u.cfg.addr u.op l = true) :
      ∃ t, branch l r v.ctlData u = .next t := by
    obtain ⟨t, ht⟩ := branchOf_some r v.ctlData hu
    exact ⟨t, by simp only [branch, ht]⟩
  unfold sampled
  split
  · exact hbranch _ (cached v) h
  · unfold emptySample
    split
    · exact hbranch _ (counted v) h
    · exact ⟨_, rfl⟩

/-- In the invariant an operation that keeps reset off is in progress (70_reset_and_hazards.md R182). -/
theorem EngineInv.transacting_of_operating {s : State} (hi : EngineInv s) (h : operating s = true) :
    transacting s = true := by
  have hend := hi.seq_ok
  cases hq : s.seq with
  | ready => simp [operating, hi.idle_of_ready hq, hi.none_of_ready hq] at h
  | issue q => exact hi.transacting_of_issue hq
  | poll l => exact hi.transacting_of_poll hq
  | respond =>
    simp only [seqInv, hq] at hend
    obtain ⟨hop, hp⟩ | ⟨ht, -⟩ := hend
    · simp [operating, hop, hp] at h
    · exact ht

theorem EngineInv.cmdReady {s : State} (hi : EngineInv s) (hq : s.seq = .ready) : cmdReady s = true := by
  simp [Machine.cmdReady, hi.idle_of_ready hq, hi.none_of_ready hq]

theorem step_of_ready {s : State} (hr : s.rst = false) (hq : s.seq = .ready) : step s = acceptStep (beginStep s) := by
  simp only [step_of_engine hr, engineStep, beginStep_seq, hq]

theorem step_of_presented {s : State} {w : CmdWord} {rest : List CmdWord} {i : Instr} (hr : s.rst = false)
    (hq : s.seq = .ready) (hc : cmdReady s = true) (hp : s.program = w :: rest) (hd : decodeCmd w = .ok i) :
    step s = exec i { beginStep s with program := rest } := by
  have hc' : cmdReady (beginStep s) = true := hc
  simp only [step_of_ready hr hq, acceptStep, beginStep_program, hp, hc', if_true, hd]

theorem step_of_reserved {s : State} {w : CmdWord} {rest : List CmdWord} {e : DecodeError} (hr : s.rst = false)
    (hq : s.seq = .ready) (hc : cmdReady s = true) (hp : s.program = w :: rest) (hd : decodeCmd w = .error e) :
    step s = .refused .reservedCommand := by
  have hc' : cmdReady (beginStep s) = true := hc
  simp only [step_of_ready hr hq, acceptStep, beginStep_program, hp, hc', if_true, hd]

theorem step_of_no_command {s : State} (hr : s.rst = false) (hq : s.seq = .ready) (hp : s.program = []) :
    step s = .next (beginStep s) := by
  simp only [step_of_ready hr hq, acceptStep, beginStep_program, hp]

theorem decodeCmd_error {w : CmdWord} {e : DecodeError} (h : decodeCmd w = .error e) : e = .reservedCommand := by
  unfold decodeCmd at h
  split at h <;> cases h
  rfl

/-- An accepted command answers a next state, but for an operation while `CTL_EN = 0`. -/
theorem exec_next_or_refused {w : CmdWord} {i : Instr} (hd : decodeCmd w = .ok i) (s : State) :
    (∃ t, exec i s = .next t) ∨ (exec i s = .refused .operationBeforeInit ∧ s.ctlEn = false) := by
  cases hen : s.ctlEn with
  | true =>
    obtain rfl | rfl | rfl := decodeCmd_ok hd
    · exact .inl ⟨_, exec_init s⟩
    · exact .inl ⟨_, exec_readByte_of_ctlEn hen _⟩
    · exact .inl ⟨_, exec_invalidate_of_ctlEn hen⟩
  | false =>
    obtain rfl | rfl | rfl := decodeCmd_ok hd
    · exact .inl ⟨_, exec_init s⟩
    · exact .inr ⟨by simp [exec, execReadByte, hen], rfl⟩
    · exact .inr ⟨by simp [exec, execInvalidate, hen], rfl⟩

/-- Settles O44: an issue, a sample of a step the operation has, and the response answer a next state; acceptance and reset
are refused in their three cases. -/
theorem stepNeverFaultsAndSeldomRefuses : Obligations.StepNeverFaultsAndSeldomRefuses := by
  intro s hi
  cases hr : s.rst with
  | true =>
    cases hop : operating s with
    | true =>
      exact .inr (.inr (.inr ⟨by simp [step, hr, resetStep, hop], rfl, hi.transacting_of_operating hop⟩))
    | false => exact .inl ⟨resetBlock s, by simp [step, hr, resetStep, hop]⟩
  | false =>
    cases hq : s.seq with
    | issue q => exact .inl ⟨_, step_of_issue hr hq⟩
    | respond => exact .inl ⟨_, step_of_respond hr hq⟩
    | poll l =>
      rw [step_of_poll hr hq]
      exact .inl (sampled_next (by simpa using (hi.stageInv_of_poll hq).has_stage))
    | ready =>
      cases hp : s.program with
      | nil => exact .inl ⟨_, step_of_no_command hr hq hp⟩
      | cons w rest =>
        cases hd : decodeCmd w with
        | ok i =>
          rw [step_of_presented hr hq (hi.cmdReady hq) hp hd]
          obtain hn | ⟨he, hen⟩ := exec_next_or_refused hd { beginStep s with program := rest }
          · exact .inl hn
          · exact .inr (.inr (.inl ⟨he, rfl, hen⟩))
        | error e =>
          obtain rfl := decodeCmd_error hd
          exact .inr (.inl ⟨step_of_reserved hr hq (hi.cmdReady hq) hp hd, rfl,
            by simpa [cmdWord, hp] using (decodeCmd_error_iff w).mp hd⟩)

end Sys2Proof.Machine
end

section
/-! The step tables of the two operations, the end of the poll loop and the characters emitted; with it the statements of
42_read_byte.md R120, 43_invalidate.md R139, 95_test_vectors.md X3 and 60_exceptions.md R171 are settled. -/

namespace Sys2Proof.Machine

/-! ### The step tables -/

/-- An acknowledged write select leads to step 3 in `ADDR16`, and past it in `ADDR8F`. -/
theorem selectBranch_success (s : State) : selectBranch (.done .success) s =
    { s with seq := if addrMode s.cfg.addr = .addr16 then .issue (.stage .s3) else .issue (.stage .s4) } := by
  simp only [selectBranch]
  split <;> rename_i ha <;> simp [ha, goto]

/-- Settles O26: each clause is the branch of the step rule, on the outcome the sample has seen. -/
theorem readStepTable : Obligations.ReadStepTable := by
  intro s v hop
  refine ⟨fun h => ?_, fun h => ?_, fun h => ?_, fun h => ?_, fun h => ?_, fun h => ?_, fun h => ?_, fun h => ?_,
    fun l hl h => ?_, fun l hl h => ?_⟩
  · exact step_of_read_class h hop rfl
  · exact step_of_read_timeout h hop rfl
  · exact step_of_read_class h hop (congrArg some (selectBranch_success _))
  · exact step_of_read_class h hop rfl
  · exact step_of_read_class h hop rfl
  · exact step_of_read_class h hop rfl
  · exact step_of_read_class h hop rfl
  · exact step_of_read_class h hop rfl
  · obtain rfl | rfl := hl <;> exact step_of_read_class h hop rfl
  · obtain rfl | rfl | rfl | rfl | rfl := hl <;> exact step_of_read_timeout h hop rfl

/-- An acknowledged fill byte is counted, and the next one is due while fewer than eight are. -/
theorem fillNext_eq (s : State) : fillNext s =
    { s with
      fillCnt := s.fillCnt + 1
      seq := if s.fillCnt + 1 < 8 then .issue (.stage .vf) else .issue .cleanup } := rfl

/-- Settles O28: each clause is the branch of the step rule, on the outcome the sample has seen. -/
theorem invalidateStepTable : Obligations.InvalidateStepTable := by
  intro s v hop
  refine ⟨fun h => ?_, fun h => ?_, fun h => ?_, fun h => ?_, fun h => ?_, fun h => ?_, fun l hl h => ?_, fun h => ?_,
    fun l hl h => ?_⟩
  · exact step_of_inval_class h hop rfl
  · exact step_of_inval_timeout h hop rfl
  · exact step_of_inval_class h hop (congrArg some (selectBranch_success _))
  · exact step_of_inval_class h hop rfl
  · exact step_of_inval_low_acknowledged h hop
  · exact step_of_inval_class h hop (congrArg some (fillNext_eq _))
  · obtain rfl | rfl := hl <;> exact step_of_inval_class h hop rfl
  · exact step_of_inval_class h hop rfl
  · obtain rfl | rfl | rfl | rfl := hl <;> exact step_of_inval_timeout h hop rfl

/-! ### Runs -/

theorem run_succ {s t : State} (h : step s = .next t) (n : Nat) :
    Host.Core.run core (n + 1) s = Host.Core.run core n t := by
  simp only [Host.Core.run, Host.Check.core_step, h]

theorem run_one {s t : State} (h : step s = .next t) : Host.Core.run core 1 s = .next t := run_succ h 0

/-- A run is run on from the state it has reached. -/
theorem run_add {m n : Nat} {s t : State} (h : Host.Core.run core m s = .next t) :
    Host.Core.run core (m + n) s = Host.Core.run core n t := by
  induction m generalizing s with
  | zero =>
    cases h
    rw [Nat.zero_add]
  | succ m ih =>
    simp only [Host.Core.run, Host.Check.core_step] at h
    split at h
    · rename_i u hu
      rw [Nat.add_right_comm, run_succ hu]
      exact ih h
    · cases h
    · cases h

/-! ### The end of the poll loop -/

/-- A sample of a polled step leaves the loop, or is counted below `POLL_MAX`. -/
theorem polled_next {s : State} {l : Stage} (hi : EngineInv s) (hr : s.rst = false) (hq : s.seq = .poll l) :
    ∃ t, step s = .next t ∧ EngineInv t ∧ t.rst = false ∧
      (t.seq ≠ .poll l ∨ (t.seq = .poll l ∧ t.pollCnt = s.pollCnt + 1 ∧ t.cfg = s.cfg)) := by
  obtain ⟨t, ht⟩ := sampled_next (l := l) (v := envStep (beginStep s)) (by simpa using (hi.stageInv_of_poll hq).has_stage)
  have hstep : step s = .next t := (step_of_poll hr hq).trans ht
  refine ⟨t, hstep, stepKeepsInvariant s t hi hstep, (step_writes hr hstep).rst.trans hr, ?_⟩
  obtain ⟨v, hv, ⟨c, -, hb⟩ | ⟨-, hb⟩ | rfl⟩ := polled_cases hr hq ht
  · exact .inl ((branches_kept hb).not_poll l)
  · exact .inl ((branches_kept hb).not_poll l)
  · exact .inr ⟨by simp [hv, hq], by simp [hv], by simp [hv]⟩

/-- Settles O24, by induction on the samples left. -/
theorem pollLoopEndsWithinPollMax : Obligations.PollLoopEndsWithinPollMax := by
  intro s l hi hr hq
  induction hn : s.cfg.pollMax.val - s.pollCnt generalizing s with
  | zero =>
    have hlt := hi.pollCnt_lt hq
    omega
  | succ n ih =>
    obtain ⟨t, hstep, hit, hrt, hleft | ⟨hqt, hcnt, hcfg⟩⟩ := polled_next hi hr hq
    · exact ⟨1, t, Nat.le_refl _, by omega, run_one hstep, hleft⟩
    · obtain ⟨k, u, -, hk, hrun, hu⟩ := ih t hit hrt hqt (by rw [hcfg, hcnt]; omega)
      exact ⟨k + 1, u, by omega, by omega, (run_succ hstep k).trans hrun, hu⟩

/-! ### The characters emitted -/

/-- At most `n` characters more, and none without `DIAG_ENABLE`. -/
def Emitted (n : Nat) (s t : State) : Prop :=
  ∃ more, t.sink = s.sink ++ more ∧ more.length ≤ n ∧ (s.cfg.diagEnable = false → more = [])

theorem emitted_of_sink {s t : State} (h : t.sink = s.sink) (n : Nat) : Emitted n s t :=
  ⟨[], by simp [h], Nat.zero_le _, fun _ => rfl⟩

/-- A branch raises one error at most, but for the exhausted retry, which raises two. -/
theorem branches_emitted {d : Byte} {l : Stage} {r : PhaseResult} {s t : State} (h : Branches d l r s t) :
    Emitted 2 s t := by
  have hone (e : ErrorClass) (i : ErrorInfo) : Emitted 2 s (raise e i s) := by
    obtain ⟨more, hsink, hlen, hen⟩ := raise_sink e i s
    exact ⟨more, hsink, by omega, hen⟩
  cases h with
  | busy =>
    obtain ⟨m1, hsink1, hlen1, hen1⟩ := raise_sink .notReady .plain s
    obtain ⟨m2, hsink2, hlen2, hen2⟩ := raise_sink .retryExhausted .plain (countRetry (raise .notReady .plain s))
    unfold busyRetry
    split
    · exact hone .notReady .plain
    · refine ⟨m1 ++ m2, ?_, by simp; omega, fun hd => by simp [hen1 hd, hen2 (by simpa using hd)]⟩
      simp [raiseTo, hsink2, hsink1]
  | startTimeout | refusedRead | rejected | lost _ | unanticipated _ | timedOut _ => exact hone _ _
  | _ => exact emitted_of_sink rfl 2

theorem sampled_emitted {l : Stage} {v t : State} (h : sampled l v = .next t) : Emitted 2 v t := by
  obtain ⟨-, hb⟩ | ⟨-, -, hb⟩ | ⟨-, -, rfl⟩ := sampled_cases h
  · exact branches_emitted (s := cached v) (branchOf_branches hb).1
  · exact branches_emitted (s := counted v) (branchOf_branches hb).1
  · exact emitted_of_sink rfl 2

/-- Settles O49: `INIT` emits its newline, a sample what its errors emit, and no other step anything. -/
theorem charactersOnlyAdded : Obligations.CharactersOnlyAdded := by
  intro s t h
  have hnone (hsink : t.sink = s.sink) : ∃ more, t.sink = s.sink ++ more ∧ more.length ≤ 2 ∧
      (s.cfg.diagEnable = false → more ≠ [] → more = [newline] ∧ s.seq = .ready ∧ t.op = .init) :=
    ⟨[], by simp [hsink], by simp, fun _ hne => absurd rfl hne⟩
  obtain ⟨-, -, rfl⟩ | ⟨-, -, rfl⟩ | ⟨-, hq, -, rest, i, hi, he⟩ | ⟨-, q, -, rfl⟩ | ⟨-, l, -, hl⟩ | ⟨-, -, rfl⟩ :=
    step_cases h
  · exact hnone rfl
  · exact hnone rfl
  · obtain rfl | ⟨-, off, rfl⟩ | ⟨-, rfl⟩ := accepted_cases hi he
    · exact ⟨[newline], rfl, by simp, fun _ _ => ⟨rfl, hq, rfl⟩⟩
    · exact hnone rfl
    · exact hnone rfl
  · exact hnone rfl
  · obtain ⟨more, hsink, hlen, hen⟩ := sampled_emitted hl
    exact ⟨more, by simpa using hsink, hlen, fun hd hne => absurd (hen (by simpa using hd)) hne⟩
  · exact hnone rfl

end Sys2Proof.Machine
end

section
/-! Acceptance, issue, an empty sample, `raise` and reset, each on its own; with it the statements on single steps are
settled. -/

namespace Sys2Proof.Machine

/-! ### Acceptance -/

/-- Settles O9: acceptance takes the word off the port and runs it. -/
theorem stepRunsPresentedCommand : Obligations.StepRunsPresentedCommand :=
  fun _ _ _ _ hr hq hc hp hd => step_of_presented hr hq hc hp hd

/-- Settles O12: a word of code `0b00` is no command. -/
theorem reservedCommandRefused : Obligations.ReservedCommandRefused :=
  fun _ w _ hr hq hc hp hw => step_of_reserved hr hq hc hp ((decodeCmd_error_iff w).mpr hw)

/-- Settles O11: with nothing on the port the step is `beginStep` alone, which writes the pulses and the open values. -/
theorem readyBlockWaits : Obligations.ReadyBlockWaits := fun s hr hq hp =>
  ⟨step_of_no_command hr hq hp, rfl, fun hrec => by simp [hrec]⟩

/-- Settles O13: `INIT` is accepted in every state, and the step after it is its response. -/
theorem initConfiguresEnablesAndResponds : Obligations.InitConfiguresEnablesAndResponds := by
  intro s
  refine ⟨initAccepted s, exec_init s, rfl, fun hr => ?_⟩
  exact ⟨respond (beginStep (initAccepted s)), step_of_respond hr rfl, rfl, rfl, rfl, rfl, rfl, rfl, rfl, rfl, rfl, rfl, rfl,
    rfl, rfl, rfl, rfl, rfl⟩

/-- Settles O14: the response between the two keeps the parameters the divider is computed from. -/
theorem secondInitChangesNoSetting : Obligations.SecondInitChangesNoSetting := by
  intro s t u v ht hu hv hr
  obtain rfl : initAccepted s = t := by simpa [exec_init] using ht
  have hrt : (initAccepted s).rst = false := hr
  rw [step_of_respond hrt rfl] at hu
  obtain rfl : respond (beginStep (initAccepted s)) = u := by simpa using hu
  obtain rfl : initAccepted (respond (beginStep (initAccepted s))) = v := by simpa [exec_init] using hv
  exact ⟨rfl, rfl, by simp [initAccepted]⟩

/-- Settles O15: with `CTL_EN` set the entry writes what is listed. -/
theorem readByteEntry : Obligations.ReadByteEntry := fun _ _ hen =>
  ⟨_, exec_readByte_of_ctlEn hen _, rfl, rfl, rfl, rfl, rfl, rfl, rfl, rfl, rfl⟩

/-- Settles O17: both entries look at `CTL_EN` first. -/
theorem operationBeforeInitRefused : Obligations.OperationBeforeInitRefused := fun _ _ hen =>
  ⟨by simp [exec, execReadByte, hen], by simp [exec, execInvalidate, hen]⟩

/-- A command's own word is one of the three commands. -/
theorem command_cases {i : Instr} (h : i.format = .cmd) : i = .init ∨ (∃ off, i = .readByte off) ∨ i = .invalidate := by
  cases i with
  | init => exact .inl rfl
  | readByte off => exact .inr (.inl ⟨off, rfl⟩)
  | invalidate => exact .inr (.inr rfl)
  | start | tx _ | rxNack | stop => cases h

/-- Settles O18: what each accepted command leaves is read off the state it leaves. -/
theorem commandFrame : Obligations.CommandFrame := by
  refine ⟨fun i s t hi h => ?_, fun s t h => ?_, fun i s t hi hne h => ?_, fun s t h => ?_⟩
  · obtain rfl | ⟨-, off, rfl⟩ | ⟨-, rfl⟩ := accepted_cases (command_cases hi) h <;>
      exact ⟨rfl, rfl, rfl, rfl, rfl, rfl, rfl, rfl, rfl, rfl, rfl, rfl, rfl, rfl, rfl, rfl, rfl, rfl, fun _ => rfl⟩
  · cases h
    exact ⟨rfl, rfl, rfl, rfl, rfl⟩
  · obtain rfl | hop := command_cases hi
    · exact absurd rfl hne
    · obtain ⟨off, rfl⟩ | rfl := hop
      · simp only [exec, execReadByte] at h
        split at h <;> cases h
        exact ⟨rfl, rfl, rfl, rfl, rfl⟩
      · simp only [exec, execInvalidate] at h
        split at h <;> cases h
        exact ⟨rfl, rfl, rfl, rfl, rfl⟩
  · simp only [exec, execInvalidate] at h
    split at h <;> cases h
    exact ⟨rfl, rfl⟩

/-! ### Issue -/

/-- Settles O10: the step that issues a label is the run of the label's word. -/
theorem stepRunsIssuedPrimitive : Obligations.StepRunsIssuedPrimitive := fun s t hr hq =>
  (step_of_issue hr hq).trans (exec_primWord s.cfg.addr s.off t _).symm

/-- Running a primitive is issuing its own word (41_primitives.md section 2). -/
theorem exec_prim {i : Instr} (h : i.format = .prim) (s : State) :
    ∃ k b, encode i = .prim (primWordOf k b) ∧ exec i s = .next (issue (primWordOf k b) s) := by
  cases i with
  | start | tx b | rxNack | stop => exact ⟨_, _, rfl, rfl⟩
  | init | readByte _ | invalidate => cases h

/-- Settles O19: the two words carry no data, so `CTL_DATA` is left. -/
theorem startAndReceiveAreIssued : Obligations.StartAndReceiveAreIssued := fun s =>
  ⟨⟨_, rfl, by simp, rfl, rfl, by simp, by simp, rfl, by simp [busEvent]⟩,
    ⟨_, rfl, by simp, rfl, rfl, by simp, by simp, rfl, by simp [busEvent]⟩⟩

/-- Settles O20: the word's data byte is the byte sent. -/
theorem transmitIsIssued : Obligations.TransmitIsIssued := fun s b =>
  ⟨_, rfl, by simp, by simp, rfl, rfl, by simp, rfl, by simp [busEvent]⟩

/-- Settles O21: `STOP` has no poll loop to clear `poll_cnt` for, and the label that issues it leads to the response. -/
theorem stopIsIssuedAndNotPolled : Obligations.StopIsIssuedAndNotPolled := by
  refine ⟨fun s => ⟨_, rfl, by simp, rfl, rfl, by simp, by simp, rfl, rfl, by simp [busEvent]⟩, fun s t hr hq h => ?_⟩
  rw [step_of_issue hr hq] at h
  cases h
  exact ⟨rfl, issued_pollCnt_cleanup s, rfl⟩

/-- Settles O22: each primitive is an issue, and an issue writes the bus-controller registers, `poll_cnt`, the outstanding
primitives and the trace. -/
theorem primitiveFrame : Obligations.PrimitiveFrame := by
  refine ⟨fun i s t hi h => ?_, fun i s t hi hne h => ?_, fun s t h => ?_⟩
  · obtain ⟨k, b, -, he⟩ := exec_prim hi s
    rw [he] at h
    cases h
    exact ⟨rfl, rfl, rfl, rfl, rfl, rfl, rfl, rfl, rfl, rfl, rfl, rfl, rfl, rfl, rfl, rfl, rfl, rfl, rfl, rfl, rfl, rfl, rfl,
      rfl, rfl, fun _ => rfl⟩
  · cases i with
    | tx b => exact absurd rfl (hne b)
    | init | readByte _ | invalidate => cases hi
    | start | rxNack | stop =>
      cases h
      simp
  · cases h
    simp

/-! ### A sample, an error, reset -/

/-- Settles O23: a sample that is not the last is counted, and no branch is taken. -/
theorem emptySampleIsCounted : Obligations.EmptySampleIsCounted := by
  intro s v l h hd hlast
  refine ⟨?_, rfl, fun hrec => by simp [hrec]⟩
  rw [step_of_poll h.no_reset h.polling, ← h.view]
  simp only [sampled, hd, Bool.false_eq_true, if_false, emptySample, if_neg hlast]

/-- Settles O33: the record is written first, and the character, if there is one, after it. -/
theorem raiseRecordsAndMayEmit : Obligations.RaiseRecordsAndMayEmit := by
  intro e i s
  refine ⟨?_, fun hno => ?_, fun ch hen hch => ?_⟩
  · unfold raise diag
    split <;> rfl
  · have hd : diagOf e i { s with errors := s.errors ++ [⟨e, i, s.phase⟩] } = none := by
      obtain hen | hrow := hno
      · simp [diagOf, hen]
      · simp [diagOf, hrow]
    simp [raise, diag, hd]
  · have hd : diagOf e i { s with errors := s.errors ++ [⟨e, i, s.phase⟩] } = some ch := by simp [diagOf, hen, hch]
    simp [raise, diag, hd]

/-- Settles O36: the values are `State.reset`'s own. -/
theorem resetLeavesTheSpecsValues : Obligations.ResetLeavesTheSpecsValues := ⟨rfl, rfl, rfl, rfl, rfl, rfl, rfl, rfl, rfl⟩

theorem step_of_reset_operating {s : State} (hr : s.rst = true) (h : operating s = true) :
    step s = .refused .resetDuringOperation := by
  simp only [step, hr, resetStep, h, if_true]

theorem step_of_reset {s : State} (hr : s.rst = true) (h : operating s = false) : step s = .next (resetBlock s) := by
  simp only [step, hr, resetStep, h, if_true, Bool.false_eq_true, if_false]

/-- Settles O37: reset takes place exactly when no operation runs, and leaves what is not the block's. -/
theorem resetInputResetsOrRefuses : Obligations.ResetInputResetsOrRefuses := by
  refine ⟨fun s hr hp hop => ?_, fun s hr hp => ?_, fun s hr hop => ?_⟩
  · have hidle : operating s = false := by
      obtain ho | ho := hop <;> simp [operating, hp, ho]
    exact ⟨resetBlock s, step_of_reset hr hidle, rfl, rfl, rfl, rfl, rfl, rfl, rfl, rfl, rfl, rfl, rfl, rfl, rfl,
      rfl, rfl, rfl, rfl, rfl⟩
  · exact step_of_reset_operating hr (by simp [operating, hp])
  · refine step_of_reset_operating hr ?_
    obtain ho | ho := hop <;> simp [operating, ho]

/-- Settles O38: the reset block is ready, runs nothing, and its memory is empty. -/
theorem resetMeetsTheInvariants : Obligations.ResetMeetsTheInvariants := by
  refine ⟨⟨⟨rfl, rfl⟩, Nat.zero_le _, Nat.zero_le _, Nat.zero_le _, nofun, nofun, nofun, fun _ => nofun, nofun, rfl⟩,
    traceInv_of_none rfl, nofun⟩

end Sys2Proof.Machine
end

section
/-! What a step does not depend on: the hidden state and the device's memory, the diagnostics, the commands to come, and the
momentary values; with it the statements of noninterference are settled. -/

namespace Sys2Proof.Machine

/-! ### Steps taken alike -/

/-- Two outcomes alike: both stop for the same reason, or both answer next states that `R` relates. -/
def Alike (R : State → State → Prop) : Host.Outcome State Fault Refusal → Host.Outcome State Fault Refusal → Prop
  | .next t, .next t' => R t t'
  | .fault r, .fault r' => r = r'
  | .refused r, .refused r' => r = r'
  | _, _ => False

section Outcomes

variable {R : State → State → Prop} {o : Host.Outcome State Fault Refusal}

theorem Alike.next {t : State} (h : Alike R (.next t) o) : ∃ t', o = .next t' ∧ R t t' := by
  cases o with
  | next t' => exact ⟨t', rfl, h⟩
  | fault _ | refused _ => exact h.elim

theorem Alike.fault {r : Fault} (h : Alike R (.fault r) o) : o = .fault r := by
  cases o with
  | fault r' => exact congrArg _ h.symm
  | next _ | refused _ => exact h.elim

theorem Alike.refused {r : Refusal} (h : Alike R (.refused r) o) : o = .refused r := by
  cases o with
  | refused r' => exact congrArg _ h.symm
  | next _ | fault _ => exact h.elim

end Outcomes

/-- What a sample and a branch read of the state. -/
structure SameReads (s s' : State) : Prop where
  op        : s'.op = s.op
  started   : s'.started = s.started
  retryCnt  : s'.retryCnt = s.retryCnt
  fillCnt   : s'.fillCnt = s.fillCnt
  pollCnt   : s'.pollCnt = s.pollCnt
  addr      : s'.cfg.addr = s.cfg.addr
  retryMax  : s'.cfg.retryMax = s.cfg.retryMax
  pollMax   : s'.cfg.pollMax = s.cfg.pollMax
  classRows : s'.cfg.classRows = s.cfg.classRows
  ctlDone   : s'.ctlDone = s.ctlDone
  ctlStatus : s'.ctlStatus = s.ctlStatus
  ctlData   : s'.ctlData = s.ctlData

/-- A relation whose difference no branch reads, and every update that a sample makes carries on. -/
structure Unread (R : State → State → Prop) : Prop where
  reads      : ∀ {s s'}, R s s' → SameReads s s'
  raise      : ∀ {s s'} (e : ErrorClass) (i : ErrorInfo), R s s' → R (raise e i s) (raise e i s')
  goto       : ∀ {s s'} (q : Seq), R s s' → R (goto q s) (goto q s')
  countRetry : ∀ {s s'}, R s s' → R (countRetry s) (countRetry s')
  capture    : ∀ {s s'} (d : Byte), R s s' → R (capture d s) (capture d s')
  start      : ∀ {s s'}, R s s' → R { s with started := true } { s' with started := true }
  fill       : ∀ {s s'} (n : Nat), R s s' → R { s with fillCnt := n } { s' with fillCnt := n }
  cached     : ∀ {s s'}, R s s' → R (cached s) (cached s')
  counted    : ∀ {s s'}, R s s' → R (counted s) (counted s')

section Branches

variable {R : State → State → Prop} {s s' : State}

theorem Unread.raiseTo (hR : Unread R) (h : R s s') (e : ErrorClass) (i : ErrorInfo) (q : Seq) :
    R (raiseTo e i q s) (raiseTo e i q s') := hR.goto q (hR.raise e i h)

theorem Unread.startBranch (hR : Unread R) (h : R s s') (r : PhaseResult) : R (startBranch r s) (startBranch r s') := by
  cases r with
  | timeout =>
    simp only [Machine.startBranch, (hR.reads h).started]
    exact hR.raiseTo h _ _ _
  | done c =>
    cases c with
    | success => exact hR.goto _ (hR.start h)
    | arbLost | notReady | rejected | unexpected => exact hR.raiseTo h _ _ _

theorem Unread.busyRetry (hR : Unread R) (h : R s s') : R (busyRetry s) (busyRetry s') := by
  have hcount := hR.countRetry (hR.raise .notReady .plain h)
  simp only [Machine.busyRetry, (hR.reads h).retryCnt, (hR.reads h).retryMax]
  split
  · exact hR.goto _ hcount
  · exact hR.raiseTo hcount _ _ _

theorem Unread.selectBranch (hR : Unread R) (h : R s s') (r : PhaseResult) : R (selectBranch r s) (selectBranch r s') := by
  cases r with
  | timeout => exact hR.raiseTo h _ _ _
  | done c =>
    cases c with
    | success =>
      simp only [Machine.selectBranch, (hR.reads h).addr]
      split <;> exact hR.goto _ h
    | notReady => exact hR.busyRetry h
    | arbLost | rejected | unexpected => exact hR.raiseTo h _ _ _

theorem Unread.addressBranch (hR : Unread R) (h : R s s') (info : ErrorInfo) {success : State → State}
    (hs : R (success s) (success s')) (r : PhaseResult) :
    R (addressBranch info success r s) (addressBranch info success r s') := by
  cases r with
  | timeout => exact hR.raiseTo h _ _ _
  | done c =>
    cases c with
    | success => exact hs
    | rejected | arbLost | notReady | unexpected => exact hR.raiseTo h _ _ _

theorem Unread.readS5 (hR : Unread R) (h : R s s') (r : PhaseResult) : R (readS5 r s) (readS5 r s') := by
  cases r with
  | timeout => exact hR.raiseTo h _ _ _
  | done c =>
    cases c with
    | success => exact hR.goto _ h
    | rejected | arbLost | notReady | unexpected => exact hR.raiseTo h _ _ _

theorem Unread.readS6 (hR : Unread R) (h : R s s') (r : PhaseResult) : R (readS6 r s) (readS6 r s') := by
  cases r with
  | timeout => exact hR.raiseTo h _ _ _
  | done c =>
    cases c with
    | success => exact hR.goto _ h
    | rejected | arbLost | notReady | unexpected => exact hR.raiseTo h _ _ _

theorem Unread.readS7 (hR : Unread R) (h : R s s') (r : PhaseResult) (d : Byte) : R (readS7 r d s) (readS7 r d s') := by
  cases r with
  | timeout => exact hR.raiseTo h _ _ _
  | done c =>
    cases c with
    | success => exact hR.goto _ (hR.capture d h)
    | rejected | arbLost | notReady | unexpected => exact hR.raiseTo h _ _ _

theorem Unread.fillNext (hR : Unread R) (h : R s s') : R (fillNext s) (fillNext s') := by
  simp only [Machine.fillNext, (hR.reads h).fillCnt]
  exact hR.goto _ (hR.fill _ h)

theorem Unread.enterFill (hR : Unread R) (h : R s s') : R (enterFill s) (enterFill s') := hR.goto _ (hR.fill 0 h)

/-- The running operation takes the same branch, if it has one. -/
theorem Unread.branch (hR : Unread R) (h : R s s') (l : Stage) (r : PhaseResult) (d : Byte) :
    Alike R (branch l r d s) (branch l r d s') := by
  have hgoto (q : Seq) : R (Machine.goto q s) (Machine.goto q s') := hR.goto q h
  simp only [Machine.branch, branchOf, (hR.reads h).op]
  cases s.op with
  | none | init => exact rfl
  | read =>
    cases l with
    | s1 => exact hR.startBranch h r
    | s2 => exact hR.selectBranch h r
    | s3 => exact hR.addressBranch h _ (hgoto _) r
    | s4 => exact hR.addressBranch h _ (hgoto _) r
    | s5 => exact hR.readS5 h r
    | s6 => exact hR.readS6 h r
    | s7 => exact hR.readS7 h r d
    | vf => exact rfl
  | inval =>
    cases l with
    | s1 => exact hR.startBranch h r
    | s2 => exact hR.selectBranch h r
    | s3 => exact hR.addressBranch h _ (hgoto _) r
    | s4 => exact hR.addressBranch h _ (hR.enterFill h) r
    | vf => exact hR.addressBranch h _ (hR.fillNext h) r
    | s5 | s6 | s7 => exact rfl

/-- The sample sees the same, and takes the same branch. -/
theorem Unread.sampled (hR : Unread R) (h : R s s') (l : Stage) : Alike R (sampled l s) (sampled l s') := by
  have hr := hR.reads h
  simp only [Machine.sampled, completion, emptySample, hr.ctlDone, hr.classRows, hr.ctlStatus, hr.ctlData, hr.pollCnt,
    hr.pollMax]
  split
  · exact hR.branch (hR.cached h) _ _ _
  · split
    · exact hR.branch (hR.counted h) _ _ _
    · exact hR.counted h

end Branches

/-- A command is accepted alike, or refused in both. -/
theorem accepted_alike {R : State → State → Prop} {s s' : State} {i : Instr} {off : Offset}
    (hi : i = .init ∨ i = .readByte off ∨ i = .invalidate) (hen : s'.ctlEn = s.ctlEn)
    (hinit : R (initAccepted s) (initAccepted s')) (hread : ∀ off, R (readAccepted off s) (readAccepted off s'))
    (hinval : R (invalAccepted s) (invalAccepted s')) : Alike R (exec i s) (exec i s') := by
  obtain rfl | rfl | rfl := hi
  · exact hinit
  · cases hctl : s.ctlEn with
    | false => simp [exec, execReadByte, hen, hctl, Alike]
    | true =>
      rw [exec_readByte_of_ctlEn hctl, exec_readByte_of_ctlEn (hen.trans hctl)]
      exact hread off
  · cases hctl : s.ctlEn with
    | false => simp [exec, execInvalidate, hen, hctl, Alike]
    | true =>
      rw [exec_invalidate_of_ctlEn hctl, exec_invalidate_of_ctlEn (hen.trans hctl)]
      exact hinval

/-- The port and the state a command is accepted in, alike, and so the state it leaves. -/
theorem acceptStep_alike {R : State → State → Prop} {s s' : State} (h : R s s') (hp : s'.program = s.program)
    (hc : cmdReady s' = cmdReady s) (hen : s'.ctlEn = s.ctlEn)
    (hinit : ∀ rest, R (initAccepted { s with program := rest }) (initAccepted { s' with program := rest }))
    (hread : ∀ rest off, R (readAccepted off { s with program := rest }) (readAccepted off { s' with program := rest }))
    (hinval : ∀ rest, R (invalAccepted { s with program := rest }) (invalAccepted { s' with program := rest })) :
    Alike R (acceptStep s) (acceptStep s') := by
  simp only [acceptStep, hp, hc]
  cases s.program with
  | nil => exact h
  | cons w rest =>
    cases cmdReady s with
    | false => exact h
    | true =>
      cases hd : decodeCmd w with
      | error e =>
        simp only [if_true, hd]
        exact rfl
      | ok i =>
        simp only [if_true, hd]
        have hen' : ({ s' with program := rest } : State).ctlEn = ({ s with program := rest } : State).ctlEn := hen
        exact accepted_alike (decodeCmd_ok hd) hen' (hinit rest) (hread rest) (hinval rest)

/-! ### The commands to come -/

/-- Other commands to come. -/
def withProgram (p : List CmdWord) (s : State) : State := { s with program := p }

theorem raise_withProgram (e : ErrorClass) (i : ErrorInfo) (p : List CmdWord) (s : State) :
    raise e i (withProgram p s) = withProgram p (raise e i s) := by
  have hd : diagOf e i { withProgram p s with errors := s.errors ++ [⟨e, i, s.phase⟩] } =
      diagOf e i { s with errors := s.errors ++ [⟨e, i, s.phase⟩] } := rfl
  change diag e i { withProgram p s with errors := s.errors ++ [⟨e, i, s.phase⟩] } = _
  simp only [raise, diag, hd]
  split <;> rfl

theorem unread_program (p : List CmdWord) : Unread fun s s' => s' = withProgram p s where
  reads := by
    rintro s _ rfl
    exact ⟨rfl, rfl, rfl, rfl, rfl, rfl, rfl, rfl, rfl, rfl, rfl, rfl⟩
  raise := by
    rintro s _ e i rfl
    exact raise_withProgram e i p s
  goto := by rintro s _ q rfl; rfl
  countRetry := by rintro s _ rfl; rfl
  capture := by rintro s _ d rfl; rfl
  start := by rintro s _ rfl; rfl
  fill := by rintro s _ n rfl; rfl
  cached := by rintro s _ rfl; rfl
  counted := by rintro s _ rfl; rfl

theorem envStep_withProgram (p : List CmdWord) (s : State) : envStep (withProgram p s) = withProgram p (envStep s) := by
  have hm : nextMove (withProgram p s) = nextMove s := rfl
  simp only [envStep, hm]
  cases nextMove s <;> rfl

/-- The port is not looked at while a command runs. -/
theorem step_withProgram {s t : State} (p : List CmdWord) (hr : s.rst = false) (hready : s.seq ≠ .ready)
    (h : step s = .next t) : t.program = s.program ∧ step (withProgram p s) = .next (withProgram p t) := by
  cases hq : s.seq with
  | ready => exact absurd hq hready
  | issue q =>
    rw [step_of_issue hr hq] at h
    cases h
    exact ⟨rfl, step_of_issue (s := withProgram p s) hr hq⟩
  | respond =>
    rw [step_of_respond hr hq] at h
    cases h
    exact ⟨rfl, step_of_respond (s := withProgram p s) hr hq⟩
  | poll l =>
    rw [step_of_poll hr hq] at h
    refine ⟨by simp [(sampled_sampleKeeps h).program], ?_⟩
    have halike := (unread_program p).sampled (envStep_withProgram p (beginStep s)) l
    rw [h] at halike
    obtain ⟨t', ht', rfl⟩ := halike.next
    exact (step_of_poll (s := withProgram p s) hr hq).trans ht'

/-- Settles O52: an issue and the response do not look at the port, and no sample does. -/
theorem busyEngineIgnoresCommands : Obligations.BusyEngineIgnoresCommands :=
  fun _ _ p hr hready h => step_withProgram p hr hready h

/-! ### The hidden state and the device's memory -/

/-- Another hidden state of the environment, and another memory of the device. -/
def withHidden (h : Hidden) (m : Memory) (s : State) : State := { s with hidden := h, mem := m }

/-- The same state, but for the environment's hidden state and the device's memory. -/
def SameButHidden (s s' : State) : Prop := ∃ h m, s' = withHidden h m s

theorem raise_withHidden (e : ErrorClass) (i : ErrorInfo) (h : Hidden) (m : Memory) (s : State) :
    raise e i (withHidden h m s) = withHidden h m (raise e i s) := by
  have hd : diagOf e i { withHidden h m s with errors := s.errors ++ [⟨e, i, s.phase⟩] } =
      diagOf e i { s with errors := s.errors ++ [⟨e, i, s.phase⟩] } := rfl
  change diag e i { withHidden h m s with errors := s.errors ++ [⟨e, i, s.phase⟩] } = _
  simp only [raise, diag, hd]
  split <;> rfl

theorem unread_hidden : Unread SameButHidden where
  reads := by
    rintro s _ ⟨h, m, rfl⟩
    exact ⟨rfl, rfl, rfl, rfl, rfl, rfl, rfl, rfl, rfl, rfl, rfl, rfl⟩
  raise := by
    rintro s _ e i ⟨h, m, rfl⟩
    exact ⟨h, m, raise_withHidden e i h m s⟩
  goto := by rintro s _ q ⟨h, m, rfl⟩; exact ⟨h, m, rfl⟩
  countRetry := by rintro s _ ⟨h, m, rfl⟩; exact ⟨h, m, rfl⟩
  capture := by rintro s _ d ⟨h, m, rfl⟩; exact ⟨h, m, rfl⟩
  start := by rintro s _ ⟨h, m, rfl⟩; exact ⟨h, m, rfl⟩
  fill := by rintro s _ n ⟨h, m, rfl⟩; exact ⟨h, m, rfl⟩
  cached := by rintro s _ ⟨h, m, rfl⟩; exact ⟨h, m, rfl⟩
  counted := by rintro s _ ⟨h, m, rfl⟩; exact ⟨h, m, rfl⟩

/-- The chosen device gives the same answer from two hidden states and memories. -/
def SameAnswer (a : AddrCfg) (h : Hidden) (m : Memory) (h' : Hidden) (m' : Memory) : Prop :=
  (serve a h m).done = (serve a h' m').done ∧ (serve a h m).status = (serve a h' m').status ∧
    (serve a h m).data = (serve a h' m').data

/-- The environment's answer is the same, where the chosen device gives it by premise. -/
theorem envStep_withHidden {s : State} {h : Hidden} {m : Memory}
    (hdev : nextMove s = .device → SameAnswer s.cfg.addr h m s.hidden s.mem) :
    SameButHidden (envStep s) (envStep (withHidden h m s)) := by
  have hm : nextMove (withHidden h m s) = nextMove s := rfl
  simp only [envStep, hm]
  cases hmove : nextMove s with
  | oracle done status data hidden writes => exact ⟨hidden, Memory.writes m writes, rfl⟩
  | device =>
    obtain ⟨hdone, hstatus, hdata⟩ := hdev hmove
    refine ⟨(serve s.cfg.addr h m).hidden, (serve s.cfg.addr h m).mem, ?_⟩
    simp only [applyMove, takeMove, withHidden, hdone, hstatus, hdata]
    rfl

theorem step_withHidden {s : State} {h : Hidden} {m : Memory} (hdev : ∀ l, s.seq = .poll l →
      nextMove (beginStep s) = .device → SameAnswer s.cfg.addr h m s.hidden s.mem) :
    Alike SameButHidden (step s) (step (withHidden h m s)) := by
  cases hr : s.rst with
  | true =>
    cases hop : operating s with
    | true =>
      rw [step_of_reset_operating hr hop, step_of_reset_operating (s := withHidden h m s) hr hop]
      exact rfl
    | false =>
      rw [step_of_reset hr hop, step_of_reset (s := withHidden h m s) hr hop]
      exact ⟨h, m, rfl⟩
  | false =>
    cases hq : s.seq with
    | issue q =>
      rw [step_of_issue hr hq, step_of_issue (s := withHidden h m s) hr hq]
      exact ⟨_, m, rfl⟩
    | respond =>
      rw [step_of_respond hr hq, step_of_respond (s := withHidden h m s) hr hq]
      exact ⟨h, m, rfl⟩
    | poll l =>
      rw [step_of_poll hr hq, step_of_poll (s := withHidden h m s) hr hq]
      exact unread_hidden.sampled (envStep_withHidden (hdev l hq)) l
    | ready =>
      rw [step_of_ready hr hq, step_of_ready (s := withHidden h m s) hr hq]
      exact acceptStep_alike ⟨h, m, rfl⟩ rfl rfl rfl (fun _ => ⟨h, m, rfl⟩) (fun _ _ => ⟨h, m, rfl⟩) fun _ => ⟨h, m, rfl⟩

/-- Settles O50: hidden state and memory are read by the chosen device's answer alone. -/
theorem hiddenStateStaysHidden : Obligations.HiddenStateStaysHidden := by
  intro s h m hdev
  have halike := step_withHidden hdev
  cases hs : step s with
  | next t =>
    rw [hs] at halike
    obtain ⟨t', ht', h', m', rfl⟩ := halike.next
    exact ⟨h', m', ht'⟩
  | fault r =>
    rw [hs] at halike
    exact halike.fault
  | refused r =>
    rw [hs] at halike
    exact halike.refused

/-! ### Diagnostics -/

/-- Another `DIAG_ENABLE` and `DiagCode`, another diagnostic port and other characters emitted. -/
def withDiag (en : Bool) (rows : List DiagRow) (dv : Bool) (dc : Byte) (out : List Byte) (s : State) : State :=
  { s with
    cfg := { s.cfg with diagEnable := en, diagRows := rows }
    diagValid := dv
    diagChar := dc
    sink := out }

/-- The same state, but for those. -/
def SameButDiag (en : Bool) (rows : List DiagRow) (s s' : State) : Prop := ∃ dv dc out, s' = withDiag en rows dv dc out s

/-- Raising an error writes the record of errors, the diagnostic port and the characters. -/
theorem raise_update (e : ErrorClass) (i : ErrorInfo) (s : State) : ∃ dv dc out, raise e i s = { s with
    errors := s.errors ++ [⟨e, i, s.phase⟩]
    diagValid := dv
    diagChar := dc
    sink := out } :=
  ⟨_, _, _, (raiseRecordsAndMayEmit e i s).1⟩

theorem unread_diag (en : Bool) (rows : List DiagRow) : Unread (SameButDiag en rows) where
  reads := by
    rintro s _ ⟨dv, dc, out, rfl⟩
    exact ⟨rfl, rfl, rfl, rfl, rfl, rfl, rfl, rfl, rfl, rfl, rfl, rfl⟩
  raise := by
    rintro s _ e i ⟨dv, dc, out, rfl⟩
    obtain ⟨_, _, _, h⟩ := raise_update e i s
    obtain ⟨dv', dc', out', h'⟩ := raise_update e i (withDiag en rows dv dc out s)
    rw [h, h']
    exact ⟨dv', dc', out', rfl⟩
  goto := by rintro s _ q ⟨dv, dc, out, rfl⟩; exact ⟨dv, dc, out, rfl⟩
  countRetry := by rintro s _ ⟨dv, dc, out, rfl⟩; exact ⟨dv, dc, out, rfl⟩
  capture := by rintro s _ d ⟨dv, dc, out, rfl⟩; exact ⟨dv, dc, out, rfl⟩
  start := by rintro s _ ⟨dv, dc, out, rfl⟩; exact ⟨dv, dc, out, rfl⟩
  fill := by rintro s _ n ⟨dv, dc, out, rfl⟩; exact ⟨dv, dc, out, rfl⟩
  cached := by rintro s _ ⟨dv, dc, out, rfl⟩; exact ⟨dv, dc, out, rfl⟩
  counted := by rintro s _ ⟨dv, dc, out, rfl⟩; exact ⟨dv, dc, out, rfl⟩

theorem envStep_withDiag {s s' : State} {en : Bool} {rows : List DiagRow} (h : SameButDiag en rows s s') :
    SameButDiag en rows (envStep s) (envStep s') := by
  obtain ⟨dv, dc, out, rfl⟩ := h
  have hm : nextMove (withDiag en rows dv dc out s) = nextMove s := rfl
  refine ⟨dv, dc, out, ?_⟩
  simp only [envStep, hm]
  cases nextMove s <;> rfl

theorem step_withDiag (en : Bool) (rows : List DiagRow) (dv : Bool) (dc : Byte) (out : List Byte) (s : State) :
    Alike (SameButDiag en rows) (step s) (step (withDiag en rows dv dc out s)) := by
  have hbegin : SameButDiag en rows (beginStep s) (beginStep (withDiag en rows dv dc out s)) := ⟨_, _, _, rfl⟩
  cases hr : s.rst with
  | true =>
    cases hop : operating s with
    | true =>
      rw [step_of_reset_operating hr hop, step_of_reset_operating (s := withDiag en rows dv dc out s) hr hop]
      exact rfl
    | false =>
      rw [step_of_reset hr hop, step_of_reset (s := withDiag en rows dv dc out s) hr hop]
      exact ⟨_, _, _, rfl⟩
  | false =>
    cases hq : s.seq with
    | issue q =>
      rw [step_of_issue hr hq, step_of_issue (s := withDiag en rows dv dc out s) hr hq]
      exact ⟨_, _, _, rfl⟩
    | respond =>
      rw [step_of_respond hr hq, step_of_respond (s := withDiag en rows dv dc out s) hr hq]
      exact ⟨_, _, _, rfl⟩
    | poll l =>
      rw [step_of_poll hr hq, step_of_poll (s := withDiag en rows dv dc out s) hr hq]
      exact (unread_diag en rows).sampled (envStep_withDiag hbegin) l
    | ready =>
      rw [step_of_ready hr hq, step_of_ready (s := withDiag en rows dv dc out s) hr hq]
      exact acceptStep_alike hbegin rfl rfl rfl (fun _ => ⟨_, _, _, rfl⟩) (fun _ _ => ⟨_, _, _, rfl⟩) fun _ => ⟨_, _, _, rfl⟩

/-- Settles O51: `Diag` writes the diagnostic port and the record of characters, which no rule reads. -/
theorem diagnosticsChangeNothingElse : Obligations.DiagnosticsChangeNothingElse := by
  intro s en rows dv dc out
  have halike := step_withDiag en rows dv dc out s
  cases hs : step s with
  | next t =>
    rw [hs] at halike
    obtain ⟨t', ht', dv', dc', out', rfl⟩ := halike.next
    exact ⟨dv', dc', out', ht'⟩
  | fault r =>
    rw [hs] at halike
    exact halike.fault
  | refused r =>
    rw [hs] at halike
    exact halike.refused

/-! ### Momentary values -/

/-- Settles O58: `beginStep` forgets each of the values before the step, and reset does not keep them. -/
theorem momentaryValuesAreNotReadLater : Obligations.MomentaryValuesAreNotReadLater := by
  intro s status data rsp diag
  have hbegin : beginStep { s with
      ctlStatus := status, ctlData := if s.received then data else s.ctlData, rspData := rsp, diagChar := diag } =
      beginStep s := by
    cases hrec : s.received <;> simp [beginStep, forget, hrec]
  simp only [step, hbegin]
  rfl

end Sys2Proof.Machine
end

section
/-! Arbitration loss without end, and the bounded response without it; with it the statements of
70_reset_and_hazards.md R192 and R197 are settled. -/

namespace Sys2Proof.Machine

/-! ### A primitive issued, and one sample -/

/-- The state in which the first sample looks after a stage's primitive has been issued. -/
def roundView (l : Stage) (s : State) : State := envStep (beginStep (issued (.stage l) s))

theorem run_one_eq (s : State) : Host.Core.run core 1 s = step s := by
  simp only [Host.Core.run, Host.Check.core_step]
  cases step s <;> rfl

/-- Two steps issue a stage's primitive and sample once. -/
theorem run_round {s : State} {l : Stage} (hr : s.rst = false) (hq : s.seq = toStage l) :
    Host.Core.run core 2 s = sampled l (roundView l s) := by
  have hissue : step s = .next (issued (.stage l) s) := step_of_issue hr hq
  have hsample : step (issued (.stage l) s) = sampled l (roundView l s) := step_of_poll hr rfl
  rw [run_succ hissue, run_one_eq, hsample]

/-- The move on the script is the one the sample sees. -/
theorem roundView_of_script {s : State} {l : Stage} {m : EnvMove} {rest : List EnvMove} (h : s.script = m :: rest) :
    roundView l s = applyMove m { beginStep (issued (.stage l) s) with script := rest } :=
  envStep_of_script h

/-! ### Arbitration loss without end (70_reset_and_hazards.md R192) -/

/-- Arbitration loss at step 1 leads back to step 1, and one start is all the trace has more. -/
theorem round_arbLost {s : State} {st d : Byte} {h : Hidden} {rest : List EnvMove} (hr : s.rst = false)
    (ht : transacting s = true) (hq : s.seq = toStage .s1) (hst : classify s.cfg.classRows .startK st = .arbLost)
    (hscript : s.script = .oracle true st d h [] :: rest) :
    ∃ t, Host.Core.run core 2 s = .next t ∧ t.rst = false ∧ t.op = s.op ∧ t.cfg = s.cfg ∧ t.seq = toStage .s1 ∧
      t.script = rest ∧ t.retryCnt = s.retryCnt ∧ t.started = s.started ∧ t.trace = s.trace ++ [.start] := by
  have hv := roundView_of_script (l := .s1) hscript
  generalize hview : roundView .s1 s = v at hv
  have hdone : v.ctlDone = true := by simp [hv, applyMove]
  have hstatus : v.ctlStatus = st := by simp [hv, applyMove]
  have hcfg : v.cfg = s.cfg := by simp [← hview, roundView, issued]
  have hop : v.op = s.op := by simp [← hview, roundView, issued]
  have hhas : hasStage (cached v).cfg.addr (cached v).op .s1 = true := by
    rw [cached_op, hop]
    exact hasStage_s1_of_transacting _ ht
  refine ⟨restart (cached v), ?_, ?_, ?_, ?_, rfl, ?_, ?_, ?_, ?_⟩
  · rw [run_round hr hq, hview]
    simp only [sampled, hdone, if_true, completion, hstatus, hcfg, kindOf, hst, branch, branchOf_s1 hhas, startBranch]
    rfl
  · simp [restart, raiseTo, ← hview, roundView, issued, hr]
  · simp [restart, raiseTo, hop]
  · simp [restart, raiseTo, hcfg]
  · simp [restart, raiseTo, hv, applyMove]
  · simp [restart, raiseTo, ← hview, roundView, issued]
  · simp [restart, raiseTo, ← hview, roundView, issued]
  · simp [restart, raiseTo, ← hview, roundView, issued_trace, eventOf]

/-- Settles O53, by induction on the number of losses. -/
theorem arbitrationLossNeverEnds : Obligations.ArbitrationLossNeverEnds := by
  intro n
  induction n with
  | zero => exact fun s st d h hr ht hq hst hscript => ⟨s, rfl, hq, rfl, rfl, rfl, rfl⟩
  | succ n ih =>
    intro s st d h hr ht hq hst hscript
    obtain ⟨t, hrun, hrt, hop, hcfg, hqt, hst', hret, hstart, htr⟩ := round_arbLost hr ht hq hst hscript
    obtain ⟨u, hrun', hqu, hopu, hretu, hstartu, htru⟩ :=
      ih t st d h hrt (by simpa [transacting, hop] using ht) hqt (by rwa [hcfg]) hst'
    refine ⟨u, ?_, hqu, hopu.trans hop, hretu.trans hret, hstartu.trans hstart, ?_⟩
    · rw [Nat.mul_succ, Nat.add_comm, run_add hrun]
      exact hrun'
    · rw [htru, htr, List.count_append]
      rfl

/-! ### The bounded response without arbitration loss (70_reset_and_hazards.md R197) -/

/-- The most primitives that a pass issues from a stage on, its own and the stop among them. -/
def passLeft (s : State) : Stage → Nat
  | .s1 => 13
  | .s2 => 12
  | .s3 => 11
  | .s4 => 10
  | .s5 => 4
  | .s6 => 3
  | .s7 => 2
  | .vf => 1 + (fillSize - s.fillCnt)

/-- The most primitives that an operation issues from a stage on, two for each retry left. -/
def primsLeft (s : State) (l : Stage) : Nat := 2 * (s.cfg.retryMax.val - (s.retryCnt + 1)) + passLeft s l

/-- The most steps that an operation takes to its response, by what the sequencer is about to do: one issue and at most
`POLL_MAX` samples for each primitive. -/
def stepsLeft (s : State) : Nat :=
  match s.seq with
  | .issue (.stage l) => primsLeft s l * (s.cfg.pollMax.val + 1) + 1
  | .issue .cleanup => 2
  | .poll l => (primsLeft s l - 1) * (s.cfg.pollMax.val + 1) + (s.cfg.pollMax.val - s.pollCnt) + 1
  | .respond => 1
  | .ready => 0

theorem SameControl.stepsLeft {s t : State} (h : SameControl s t) : stepsLeft t = stepsLeft s := by
  have hpass (l : Stage) : passLeft t l = passLeft s l := by cases l <;> simp only [passLeft, h.fillCnt]
  simp only [Machine.stepsLeft, primsLeft, hpass, h.seq, h.cfg, h.retryCnt, h.pollCnt]

theorem stepsLeft_pos {s : State} (hi : EngineInv s) (ht : transacting s = true) : 0 < stepsLeft s := by
  cases hq : s.seq with
  | ready => simp [transacting, hi.none_of_ready hq] at ht
  | poll l | respond => simp [stepsLeft, hq]
  | issue q => cases q <;> simp [stepsLeft, hq]

theorem passLeft_le (s : State) (l : Stage) : passLeft s l ≤ 13 := by
  cases l with
  | vf =>
    simp only [passLeft, fillSize]
    omega
  | s1 | s2 | s3 | s4 | s5 | s6 | s7 => simp [passLeft]

theorem StageInv.two_le_primsLeft {s : State} {l : Stage} (hl : StageInv s l) : 2 ≤ primsLeft s l := by
  have hfill := hl.fill_left
  simp only [primsLeft]
  cases l with
  | vf =>
    have := hfill rfl
    simp only [passLeft]
    omega
  | s1 | s2 | s3 | s4 | s5 | s6 | s7 =>
    simp only [passLeft]
    omega

/-- Without arbitration loss a branch to another step leaves a primitive fewer. -/
theorem branches_primsLeft {d : Byte} {l l' : Stage} {r : PhaseResult} {s t : State} (h : Branches d l r s t)
    (hl : StageInv s l) (hno : r ≠ .done .arbLost) (hq : t.seq = toStage l') :
    primsLeft t l' + 1 ≤ primsLeft s l := by
  cases h with
  | confirmed | toHigh _ | toLow _ | highSent | lowSent _ | restarted | readSelected =>
    cases hq
    simp [primsLeft, passLeft]
  | fillEntered _ =>
    cases hq
    simp [primsLeft, passLeft, enterFill, fillSize]
  | busy =>
    by_cases hlt : s.retryCnt + 1 < s.cfg.retryMax.val
    · rw [(busyRetry_below hlt).1] at hq
      cases hq
      simp only [primsLeft, passLeft, busyRetry_cfg, busyRetry_retryCnt]
      omega
    · rw [(busyRetry_at_ceiling hlt).1] at hq
      cases hq
  | filled =>
    have hfill := hl.fill_left rfl
    simp only [fillNext, goto_seq] at hq
    split at hq <;> cases hq
    simp only [primsLeft, passLeft, fillNext, goto_cfg, goto_retryCnt, goto_fillCnt]
    omega
  | startTimeout =>
    simp only [raiseTo, goto_seq] at hq
    split at hq <;> cases hq
  | lost _ => exact absurd rfl hno
  | refusedRead | captured _ | rejected | unanticipated _ | timedOut _ => cases hq

/-- After a branch one sample of its own step is the least that is no longer left. -/
theorem branches_stepsLeft {d : Byte} {l : Stage} {r : PhaseResult} {s t : State} (h : Branches d l r s t)
    (hl : StageInv s l) (hno : r ≠ .done .arbLost) :
    stepsLeft t ≤ (primsLeft s l - 1) * (s.cfg.pollMax.val + 1) + 1 := by
  have hk := branches_kept h
  have htwo := hl.two_le_primsLeft
  have hleast : 1 * (s.cfg.pollMax.val + 1) ≤ (primsLeft s l - 1) * (s.cfg.pollMax.val + 1) :=
    Nat.mul_le_mul_right _ (by omega)
  cases hq : t.seq with
  | ready => exact absurd hq hk.not_ready
  | poll l' => exact absurd hq (hk.not_poll l')
  | respond =>
    simp only [stepsLeft, hq]
    omega
  | issue q =>
    cases q with
    | cleanup =>
      simp only [stepsLeft, hq]
      omega
    | stage l' =>
      have hfewer : primsLeft t l' ≤ primsLeft s l - 1 := by
        have := branches_primsLeft h hl hno hq
        omega
      simp only [stepsLeft, hq, hk.cfg]
      exact Nat.succ_le_succ (Nat.mul_le_mul_right _ hfewer)

theorem sampled_stepsLeft {l : Stage} {v t : State} (hi : EngineInv v) (hq : v.seq = .poll l)
    (hno : classify v.cfg.classRows (kindOf l) v.ctlStatus ≠ .arbLost) (h : sampled l v = .next t) :
    stepsLeft t < stepsLeft v := by
  have hlt := hi.pollCnt_lt hq
  have hv : stepsLeft v =
      (primsLeft v l - 1) * (v.cfg.pollMax.val + 1) + (v.cfg.pollMax.val - v.pollCnt) + 1 := by
    simp only [stepsLeft, hq]
  obtain ⟨-, hb⟩ | ⟨-, -, hb⟩ | ⟨-, -, rfl⟩ := sampled_cases h
  · have hle : stepsLeft t ≤ (primsLeft v l - 1) * (v.cfg.pollMax.val + 1) + 1 :=
      branches_stepsLeft (s := cached v) (branchOf_branches hb).1 (hi.branchPoint_cached hq).stage (by simpa using hno)
    omega
  · have hle : stepsLeft t ≤ (primsLeft v l - 1) * (v.cfg.pollMax.val + 1) + 1 :=
      branches_stepsLeft (s := counted v) (branchOf_branches hb).1 (hi.branchPoint_counted hq).stage nofun
    omega
  · have ht : stepsLeft (counted v) =
        (primsLeft v l - 1) * (v.cfg.pollMax.val + 1) + (v.cfg.pollMax.val - (v.pollCnt + 1)) + 1 := by
      simp only [stepsLeft, counted_seq, hq]
      rfl
    omega

theorem issued_stepsLeft {s : State} {q : Target} (hi : EngineInv s) (hq : s.seq = .issue q) :
    stepsLeft (issued q s) < stepsLeft s := by
  cases q with
  | cleanup =>
    have hs : stepsLeft s = 2 := by simp only [stepsLeft, hq]
    rw [hs]
    exact Nat.lt_succ_self 1
  | stage l =>
    have htwo := (hi.stageInv_of_issue hq).two_le_primsLeft
    have ht : stepsLeft (issued (.stage l) s) =
        (primsLeft s l - 1) * (s.cfg.pollMax.val + 1) + (s.cfg.pollMax.val - 0) + 1 := by
      rw [← issued_pollCnt_stage l s]
      rfl
    have hs : stepsLeft s = primsLeft s l * (s.cfg.pollMax.val + 1) + 1 := by simp only [stepsLeft, hq]
    have hsub := Nat.sub_one_mul (primsLeft s l) (s.cfg.pollMax.val + 1)
    have hone : 1 * (s.cfg.pollMax.val + 1) ≤ primsLeft s l * (s.cfg.pollMax.val + 1) := Nat.mul_le_mul_right _ (by omega)
    omega

theorem stepsLeft_le {s : State} (hi : EngineInv s) :
    stepsLeft s ≤ (2 * s.cfg.retryMax.val + 11) * (s.cfg.pollMax.val + 1) + 1 := by
  have hprims {l : Stage} (hl : StageInv s l) : primsLeft s l ≤ 2 * s.cfg.retryMax.val + 11 := by
    have hret := hl.retry_left
    have hpass := passLeft_le s l
    simp only [primsLeft]
    omega
  have hleast : 1 * (s.cfg.pollMax.val + 1) ≤ (2 * s.cfg.retryMax.val + 11) * (s.cfg.pollMax.val + 1) :=
    Nat.mul_le_mul_right _ (by omega)
  cases hq : s.seq with
  | ready | respond =>
    simp only [stepsLeft, hq]
    omega
  | poll l =>
    have hle := Nat.mul_le_mul_right (s.cfg.pollMax.val + 1) (hprims (hi.stageInv_of_poll hq))
    have htwo := (hi.stageInv_of_poll hq).two_le_primsLeft
    have hone : 1 * (s.cfg.pollMax.val + 1) ≤ primsLeft s l * (s.cfg.pollMax.val + 1) := Nat.mul_le_mul_right _ (by omega)
    have hsub := Nat.sub_one_mul (primsLeft s l) (s.cfg.pollMax.val + 1)
    simp only [stepsLeft, hq]
    omega
  | issue q =>
    cases q with
    | cleanup =>
      simp only [stepsLeft, hq]
      omega
    | stage l =>
      have hle := Nat.mul_le_mul_right (s.cfg.pollMax.val + 1) (hprims (hi.stageInv_of_issue hq))
      simp only [stepsLeft, hq]
      omega

/-- The settled answers are oracle answers without arbitration loss. -/
def AnswersWithoutArbLoss (s : State) : Prop :=
  ∀ m ∈ s.script, ∃ dn st d h ws, m = .oracle dn st d h ws ∧ ∀ k, classify s.cfg.classRows k st ≠ .arbLost

/-- A step of an operation that is not at its response goes on with it, with fewer steps left and at most one answer
taken. -/
theorem step_toward_response {s : State} (hi : EngineInv s) (hr : s.rst = false) (ht : transacting s = true)
    (hans : AnswersWithoutArbLoss s) (hne : s.script ≠ []) (hq : s.seq ≠ .respond) :
    ∃ t, step s = .next t ∧ EngineInv t ∧ t.rst = false ∧ transacting t = true ∧ AnswersWithoutArbLoss t ∧
      s.script.length ≤ t.script.length + 1 ∧ stepsLeft t < stepsLeft s := by
  cases hseq : s.seq with
  | ready => simp [transacting, hi.none_of_ready hseq] at ht
  | respond => exact absurd hseq hq
  | issue q =>
    have hstep : step s = .next (issued q s) := step_of_issue hr hseq
    exact ⟨_, hstep, stepKeepsInvariant _ _ hi hstep, hr, ht, hans, Nat.le_succ _, issued_stepsLeft hi hseq⟩
  | poll l =>
    have hiv : EngineInv (envStep (beginStep s)) := hi.beginStep.envStep
    have hqv : (envStep (beginStep s)).seq = .poll l := by simp [hseq]
    obtain ⟨t, hsamp⟩ := sampled_next (hiv.stageInv_of_poll hqv).has_stage
    have hstep : step s = .next t := (step_of_poll hr hseq).trans hsamp
    have hk := sampled_sampleKeeps hsamp
    have hscript : t.script = s.script.tail := by simp [hk.script]
    have hcfg : t.cfg = s.cfg := by simp [hk.cfg]
    refine ⟨t, hstep, stepKeepsInvariant _ _ hi hstep, by simp [hk.rst, hr], by simpa [transacting, hk.op] using ht, ?_, ?_, ?_⟩
    · intro m hm
      rw [hcfg]
      exact hans m (List.mem_of_mem_tail (hscript ▸ hm))
    · rw [hscript, List.length_tail]
      omega
    · obtain ⟨m, rest, hcons⟩ := List.exists_cons_of_ne_nil hne
      obtain ⟨dn, st, d, h, ws, rfl, hno⟩ := hans m (by simp [hcons])
      have hstatus : (envStep (beginStep s)).ctlStatus = st := by
        rw [envStep_of_script (s := beginStep s) hcons]
        rfl
      have hless := sampled_stepsLeft hiv hqv (by simpa [hstatus] using hno (kindOf l)) hsamp
      have hsame : stepsLeft (envStep (beginStep s)) = stepsLeft s :=
        (sameControl_envStep _).stepsLeft.trans (sameControl_beginStep s).stepsLeft
      omega

/-- An operation responds within the steps left, if that many answers are settled. -/
theorem responds_within {n : Nat} {s : State} (hi : EngineInv s) (hr : s.rst = false) (ht : transacting s = true)
    (hans : AnswersWithoutArbLoss s) (hleft : stepsLeft s ≤ n) (hlen : n ≤ s.script.length) :
    ∃ k t, k ≤ n ∧ Host.Core.run core k s = .next t ∧ t.rspValid = true ∧ cmdReady t = true := by
  induction n generalizing s with
  | zero =>
    have hpos := stepsLeft_pos hi ht
    omega
  | succ n ih =>
    by_cases hq : s.seq = .respond
    · exact ⟨1, _, by omega, run_one (step_of_respond hr hq), rfl, rfl⟩
    · have hne : s.script ≠ [] := by
        rintro hnil
        simp [hnil] at hlen
      obtain ⟨t, hstep, hit, hrt, htt, hanst, hlent, hless⟩ := step_toward_response hi hr ht hans hne hq
      obtain ⟨k, u, hk, hrun, hu⟩ := ih hit hrt htt hanst (by omega) (by omega)
      exact ⟨k + 1, u, by omega, (run_succ hstep k).trans hrun, hu⟩

/-- Settles O54: the steps left are within the bound, and each step leaves fewer. -/
theorem operationRespondsWithoutArbitrationLoss : Obligations.OperationRespondsWithoutArbitrationLoss :=
  fun _ hi hr ht hans hlen => responds_within hi hr ht hans (stepsLeft_le hi) hlen

end Sys2Proof.Machine
end

section
/-! What the chosen device (assumption log 10) answers to each primitive of an operation. -/

namespace Sys2Proof.Machine

/-! ### Nothing outstanding, and one stop outstanding -/

theorem serve_nothing {a : AddrCfg} {h : Hidden} {m : Memory} (hreq : h.requests = []) :
    (serve a h m).hidden = h ∧ (serve a h m).mem = m ∧ (serve a h m).done = false := by
  obtain ⟨bus, requests, busy, ptr, wbuf, writeTime, protect⟩ := h
  obtain rfl : requests = [] := hreq
  exact ⟨rfl, rfl, rfl⟩

theorem serve_stop {a : AddrCfg} {h : Hidden} {m : Memory} (hreq : h.requests = [0x300]) :
    (serve a h m).mem = m ∧ (serve a h m).done = true ∧ (serve a h m).hidden = { h with
      requests := []
      bus := .free
      wbuf := []
      busy := if h.wbuf = [] then h.busy else h.writeTime } := by
  have hstop : decodePrim 0x300 = .stop := by decide
  simp only [serve, hreq, List.foldl_cons, List.foldl_nil, servePrim, hstop, serveStop, and_self]

/-- Settles O59: the outstanding primitives are performed one after another, here none or the one stop. -/
theorem outstandingStopIsPerformed : Obligations.OutstandingStopIsPerformed := fun _ _ _ => ⟨serve_nothing, serve_stop⟩

/-! ### The frame's bytes at the device -/

theorem selects_selW (a : AddrCfg) (off : Offset) : selects a (selW a off) = true := by
  cases a with
  | addr16 cls =>
    simp only [selects, beq_iff_eq]
    ext i hi
    grind [selW, devClassAddr, fold]
  | addr8f cls =>
    simp only [selects, beq_iff_eq]
    ext i hi
    grind [selW, devClassAddr, fold]

theorem selects_selR (a : AddrCfg) (off : Offset) : selects a (selR a off) = true := by
  cases a with
  | addr16 cls =>
    simp only [selects, beq_iff_eq]
    ext i hi
    grind [selR, devClassAddr, fold]
  | addr8f cls =>
    simp only [selects, beq_iff_eq]
    ext i hi
    grind [selR, devClassAddr, fold]

theorem selR_direction (a : AddrCfg) (off : Offset) : (selR a off).getLsbD 0 = true := (selectByteLayout a off).2.2.1

/-- The device's address pointer once the frame's address has been sent: the offset, 11 bits of it in `ADDR8F`. -/
def sentPtr (a : AddrCfg) (off : Offset) : Offset :=
  match a with
  | .addr16 _ => off
  | .addr8f _ => 0#5 ++ off.extractLsb' 0 11

theorem deviceOffset_sentPtr (a : AddrCfg) (off : Offset) : deviceOffset a (sentPtr a off) = deviceOffset a off := by
  cases a with
  | addr16 cls => rfl
  | addr8f cls =>
    have h : (sentPtr (.addr8f cls) off).extractLsb' 0 11 = off.extractLsb' 0 11 := by
      ext i hi
      grind [sentPtr]
    simp only [deviceOffset, h]

theorem sentPtr_zero (a : AddrCfg) : sentPtr a 0 = 0 := by
  cases a with
  | addr16 cls => rfl
  | addr8f cls => rfl

/-- In `ADDR16` the two address bytes are the offset. -/
theorem latch_addr16 (cls : BitVec 7) (off ptr : Offset) :
    latchAddress (.addr16 cls) 1 (addrLo off) (latchAddress (.addr16 cls) 0 (addrHi off) ptr) =
      sentPtr (.addr16 cls) off := by
  simp only [latchAddress, sentPtr, if_true, Nat.one_ne_zero, if_false]
  ext i hi
  grind [addrLo, addrHi]

/-- In `ADDR8F` the folded bits of the write select and the one address byte are 11 bits of the offset. -/
theorem latch_addr8f (cls : BitVec 4) (off ptr : Offset) :
    latchAddress (.addr8f cls) 0 (addrLo off) (latchFold (.addr8f cls) (selW (.addr8f cls) off) ptr) =
      sentPtr (.addr8f cls) off := by
  simp only [latchAddress, latchFold, sentPtr, (selectByteLayout (.addr8f cls) off).2.2.2.2.2 cls rfl]
  ext i hi
  grind [addrLo]

/-! ### The answer to each primitive -/

/-- The chosen device's answer to a stage's primitive, from a hidden state and a memory: its class in the default table, the
byte of a reception, and the hidden state and memory it leaves. -/
def Answers (a : AddrCfg) (off : Offset) (l : Stage) (h : Hidden) (m : Memory) (c : StatusClass) (d : Byte) (h' : Hidden)
    (m' : Memory) : Prop :=
  ∀ r : Reply, r.hidden = h → r.mem = m →
    classify defaultClassRows (kindOf l) (servePrim a (primWord a off (.stage l)) r).status = c ∧
    (servePrim a (primWord a off (.stage l)) r).hidden = h' ∧ (servePrim a (primWord a off (.stage l)) r).mem = m' ∧
    (l = .s7 → (servePrim a (primWord a off (.stage l)) r).data = d)

section Primitives

variable {a : AddrCfg} {off : Offset} {h : Hidden} {m : Memory}

theorem answers_start (d : Byte) : Answers a off .s1 h m .success d { h with bus := .started, wbuf := [] } m := by
  rintro r rfl rfl
  refine ⟨?_, by simp [servePrim, serveStart], by simp [servePrim, serveStart], nofun⟩
  simp only [servePrim, decodePrim_primWord_s1, serveStart, kindOf]
  split <;> decide

theorem decodePrim_primWord_s5 (a : AddrCfg) (off : Offset) : decodePrim (primWord a off (.stage .s5)) = .start :=
  decodePrim_start _

theorem decodePrim_primWord_s6 (a : AddrCfg) (off : Offset) :
    decodePrim (primWord a off (.stage .s6)) = .tx (selR a off) := decodePrim_tx _

theorem answers_restart (d : Byte) : Answers a off .s5 h m .success d { h with bus := .started, wbuf := [] } m := by
  rintro r rfl rfl
  simp only [servePrim, decodePrim_primWord_s5, serveStart, kindOf]
  refine ⟨?_, trivial, trivial, nofun⟩
  split <;> decide

theorem answers_selected (d : Byte) (hbus : h.bus = .started) (hbusy : h.busy = 0) :
    Answers a off .s2 h m .success d { h with bus := .writing 0, ptr := latchFold a (selW a off) h.ptr } m := by
  rintro r rfl rfl
  simp only [servePrim, decodePrim_primWord_s2, serveTx, hbus, serveSelect, selects_selW, hbusy, selW_direction,
    BEq.rfl, Bool.and_self, if_true, Bool.false_eq_true, if_false, kindOf]
  exact ⟨by decide, trivial, trivial, nofun⟩

theorem answers_busy (d : Byte) (hbus : h.bus = .started) (hbusy : h.busy ≠ 0) :
    Answers a off .s2 h m .notReady d { h with busy := h.busy - 1 } m := by
  rintro r rfl rfl
  have hb : (r.hidden.busy == 0) = false := by simpa using hbusy
  simp only [servePrim, decodePrim_primWord_s2, serveTx, hbus, serveSelect, selects_selW, hb, selW_direction,
    Bool.and_false, Bool.false_eq_true, if_false, if_true, kindOf]
  exact ⟨by decide, trivial, trivial, nofun⟩

theorem answers_address_byte {l : Stage} {b : Byte} {n : Nat} (d : Byte) (hl : l = .s3 ∨ l = .s4)
    (hb : decodePrim (primWord a off (.stage l)) = .tx b) (hbus : h.bus = .writing n) (hn : n < addrBytes a) :
    Answers a off l h m .success d { h with bus := .writing (n + 1), ptr := latchAddress a n b h.ptr } m := by
  rintro r rfl rfl
  simp only [servePrim, hb, serveTx, hbus, serveByte, hn, if_true]
  obtain rfl | rfl := hl <;> exact ⟨by decide, trivial, trivial, nofun⟩

theorem answers_read_selected (d : Byte) (hbus : h.bus = .started) (hbusy : h.busy = 0) :
    Answers a off .s6 h m .success d { h with bus := .reading } m := by
  rintro r rfl rfl
  simp only [servePrim, decodePrim_primWord_s6, serveTx, hbus, serveSelect, selects_selR, hbusy, selR_direction,
    BEq.rfl, Bool.and_self, if_true, kindOf]
  exact ⟨by decide, trivial, trivial, nofun⟩

theorem answers_received (hbus : h.bus = .reading) :
    Answers a off .s7 h m .success (Memory.read m (deviceOffset a h.ptr)) { h with ptr := h.ptr + 1 } m := by
  rintro r rfl rfl
  simp only [servePrim, decodePrim_primWord_s7, serveRx, hbus, kindOf]
  exact ⟨by decide, trivial, trivial, fun _ => trivial⟩

theorem answers_filled (d : Byte) {n : Nat} (hbus : h.bus = .writing n) (hn : addrBytes a ≤ n)
    (hprot : h.writeProtected = false) :
    Answers a off .vf h m .success d
      { h with bus := .writing (n + 1), ptr := h.ptr + 1, wbuf := h.wbuf ++ [fillByte] }
      (Memory.write m (BitVec.ofNat 16 (deviceOffset a h.ptr)) fillByte) := by
  rintro r rfl rfl
  simp only [servePrim, decodePrim_primWord_vf, serveTx, hbus, serveByte, Nat.not_lt.mpr hn, hprot, Bool.false_eq_true,
    if_false, kindOf]
  exact ⟨by decide, trivial, trivial, nofun⟩

end Primitives

end Sys2Proof.Machine
end

section
/-! An operation with the chosen device, followed from primitive to primitive. -/

namespace Sys2Proof.Machine

/-! ### What is followed -/

/-- What an operation with the chosen device is followed by: registers, records, and the device as it is once the primitives
still outstanding have been performed. -/
structure Followed where
  rst         : Bool
  seq         : Seq
  cfg         : Params
  op          : Op
  off         : Offset
  ctlEn       : Bool
  result      : Byte
  retryCnt    : Nat
  fillCnt     : Nat
  captured    : Bool
  errors      : Nat
  trace       : List BusEvent
  program     : List CmdWord
  script      : List EnvMove
  outstanding : List PrimWord
  device      : Hidden
  mem         : Memory

/-- A state, followed. -/
def follow (s : State) : Followed where
  rst := s.rst
  seq := s.seq
  cfg := s.cfg
  op := s.op
  off := s.off
  ctlEn := s.ctlEn
  result := s.result
  retryCnt := s.retryCnt
  fillCnt := s.fillCnt
  captured := s.captured
  errors := s.errors.length
  trace := s.trace
  program := s.program
  script := s.script
  outstanding := s.hidden.requests
  device := (serve s.cfg.addr s.hidden s.mem).hidden
  mem := (serve s.cfg.addr s.hidden s.mem).mem

/-- Every state followed as `x` comes in `n` steps to one followed as `y`. -/
def Runs (n : Nat) (x y : Followed) : Prop :=
  ∀ s, follow s = x → ∃ t, Host.Core.run core n s = .next t ∧ follow t = y

theorem Runs.trans {m n : Nat} {x y z : Followed} (h : Runs m x y) (h' : Runs n y z) : Runs (m + n) x z := by
  intro s hs
  obtain ⟨t, hrun, ht⟩ := h s hs
  obtain ⟨u, hrun', hu⟩ := h' t ht
  exact ⟨u, (run_add hrun).trans hrun', hu⟩

/-- An operation runs, and its statuses are classified by the default table (30_encoding.md R71). -/
def InOperation (x : Followed) : Prop :=
  x.rst = false ∧ x.cfg.classRows = defaultClassRows ∧ (x.op = .read ∨ x.op = .inval)

/-- A stage's primitive issued and answered, with the script, the device and its memory after the answer. -/
def answered (l : Stage) (rest : List EnvMove) (h : Hidden) (m : Memory) (x : Followed) : Followed :=
  { x with
    seq := .poll l
    trace := x.trace ++ [eventOf x.cfg.addr x.off (.stage l)]
    script := rest
    outstanding := []
    device := h
    mem := m }

/-! ### One primitive -/

/-- The device's answer at the sample: `CTL_DONE` and the status, and the hidden state and memory it leaves. -/
theorem roundView_of_device {s : State} {l : Stage} {rest : List EnvMove} {c : StatusClass} {d : Byte} {h : Hidden}
    {m : Memory} (hscript : s.script = .device :: rest)
    (hdev : Answers s.cfg.addr s.off l (serve s.cfg.addr s.hidden s.mem).hidden (serve s.cfg.addr s.hidden s.mem).mem c d h m) :
    (roundView l s).ctlDone = true ∧
    classify defaultClassRows (kindOf l) (roundView l s).ctlStatus = c ∧ (roundView l s).hidden = h ∧
    (roundView l s).mem = m ∧ h.requests = [] ∧ (l = .s7 → (roundView l s).ctlData = d) := by
  have hview := roundView_of_script (l := l) hscript
  have hserve : serve s.cfg.addr { s.hidden with requests := s.hidden.requests ++ [primWord s.cfg.addr s.off (.stage l)] } s.mem =
      servePrim s.cfg.addr (primWord s.cfg.addr s.off (.stage l)) (serve s.cfg.addr s.hidden s.mem) :=
    serve_handed_over ..
  obtain ⟨hclass, hhid, hmem, hdata⟩ := hdev _ rfl rfl
  obtain ⟨hsame, hdone⟩ := servePrim_same s.cfg.addr (primWord s.cfg.addr s.off (.stage l)) (serve s.cfg.addr s.hidden s.mem)
  refine ⟨?_, ?_, ?_, ?_, ?_, fun hl => ?_⟩
  · simp [hview, applyMove, issued, hserve, hdone]
  · simpa [hview, applyMove, issued, hserve] using hclass
  · simpa [hview, applyMove, issued, hserve] using hhid
  · simpa [hview, applyMove, issued, hserve] using hmem
  · rw [← hhid, hsame.requests]
    exact (serve_same ..).1
  · have hkind : PrimWord.kind (primWord s.cfg.addr s.off (.stage l)) = 2#2 := by rw [hl]; exact kind_primWordOf ..
    rw [hview]
    simpa [applyMove, issued, hserve, hdone, hkind] using hdata hl

/-- Two steps issue a stage's primitive and take the branch of the device's answer. -/
theorem runs_primitive {x y : Followed} {l : Stage} {rest : List EnvMove} {c : StatusClass} {d : Byte} {h : Hidden}
    {m : Memory} (hin : InOperation x) (hq : x.seq = toStage l) (hscript : x.script = .device :: rest)
    (hdev : Answers x.cfg.addr x.off l x.device x.mem c d h m)
    (hbranch : ∀ u b, follow u = answered l rest h m x → (l = .s7 → b = d) →
      ∃ t, branchOf l (.done c) b u = some t ∧ follow t = y) : Runs 2 x y := by
  rintro s rfl
  obtain ⟨hr, hrows, -⟩ := hin
  have hrows' : s.cfg.classRows = defaultClassRows := hrows
  obtain ⟨hdone, hclass, hhid, hmem, hreq, hdata⟩ := roundView_of_device hscript hdev
  have hcfg : (roundView l s).cfg = s.cfg := by simp [roundView, issued]
  have hfollow : follow (cached (roundView l s)) = answered l rest h m (follow s) := by
    obtain ⟨hserve, hservem, -⟩ := serve_nothing (a := s.cfg.addr) (m := m) hreq
    have hscript' : s.script.tail = rest := by
      have hs : s.script = .device :: rest := hscript
      rw [hs]
      rfl
    simp only [follow, answered, cached_hidden, cached_mem, cached_cfg, hcfg, hhid, hmem, hserve, hservem, hreq]
    simp [roundView, issued, busEvent_primWord, afterIssue, hscript']
  obtain ⟨t, hb, ht⟩ := hbranch _ (roundView l s).ctlData hfollow hdata
  refine ⟨t, ?_, ht⟩
  rw [run_round hr hq]
  simp only [sampled, hdone, if_true, completion, hcfg, hrows', hclass, branch, hb]
  rfl

/-! ### The updates of a branch -/

@[simp] theorem follow_goto (q : Seq) (s : State) : follow (goto q s) = { follow s with seq := q } := rfl

@[simp] theorem follow_started (s : State) : follow { s with started := true } = follow s := rfl

@[simp] theorem follow_countRetry (s : State) :
    follow (countRetry s) = { follow s with retryCnt := s.retryCnt + 1 } := rfl

@[simp] theorem follow_raise (e : ErrorClass) (i : ErrorInfo) (s : State) :
    follow (raise e i s) = { follow s with errors := s.errors.length + 1 } := by
  simp [follow]

theorem op_of_follow {u : State} {x : Followed} {l : Stage} {rest : List EnvMove} {h : Hidden} {m : Memory}
    (hu : follow u = answered l rest h m x) : u.op = x.op := congrArg Followed.op hu

end Sys2Proof.Machine
end

section
/-! Whole operations with the chosen device (assumption log 10): the refused selections, the frame's address, the read and
the fill loop; with it the statements of 95_test_vectors.md X4 to X7 are settled. -/

namespace Sys2Proof.Machine

/-! ### One stage after another -/

/-- A stage's primitive issued and answered, with the sequencer at what follows. -/
def sent (l : Stage) (rest : List EnvMove) (h : Hidden) (m : Memory) (q : Seq) (x : Followed) : Followed :=
  { answered l rest h m x with seq := q }

section Stages

variable {x : Followed} {rest : List EnvMove}

theorem hasStage_s1_of_inOperation {u : State} (hin : InOperation x) (hop : u.op = x.op) :
    hasStage u.cfg.addr u.op .s1 = true := by
  rw [hop]
  obtain ⟨-, -, h | h⟩ := hin <;> rw [h] <;> rfl

theorem hasStage_s2_of_inOperation {u : State} (hin : InOperation x) (hop : u.op = x.op) :
    hasStage u.cfg.addr u.op .s2 = true := by
  rw [hop]
  obtain ⟨-, -, h | h⟩ := hin <;> rw [h] <;> rfl

theorem runs_start (hin : InOperation x) (hq : x.seq = toStage .s1) (hscript : x.script = .device :: rest) :
    Runs 2 x (sent .s1 rest { x.device with bus := .started, wbuf := [] } x.mem (toStage .s2) x) := by
  refine runs_primitive hin hq hscript (answers_start 0) fun u b hu _ => ?_
  exact ⟨_, branchOf_s1 (hasStage_s1_of_inOperation hin (op_of_follow hu)) _ _, by
    simp only [startBranch, follow_goto, follow_started, hu, sent]⟩

/-- A refused selection is counted, and made again while a retry is left. -/
theorem runs_refused (hin : InOperation x) (hq : x.seq = toStage .s2) (hscript : x.script = .device :: rest)
    (hbus : x.device.bus = .started) (hbusy : x.device.busy ≠ 0) (hleft : x.retryCnt + 1 < x.cfg.retryMax.val) :
    Runs 2 x { sent .s2 rest { x.device with busy := x.device.busy - 1 } x.mem (toStage .s1) x with
      retryCnt := x.retryCnt + 1
      errors := x.errors + 1 } := by
  refine runs_primitive hin hq hscript (answers_busy 0 hbus hbusy) fun u b hu _ => ?_
  refine ⟨_, branchOf_s2 (hasStage_s2_of_inOperation hin (op_of_follow hu)) _ _, ?_⟩
  have hret : u.retryCnt = x.retryCnt := congrArg Followed.retryCnt hu
  have hcfg : u.cfg = x.cfg := congrArg Followed.cfg hu
  have herr : u.errors.length = x.errors := congrArg Followed.errors hu
  simp only [selectBranch, busyRetry, hret, hcfg, if_pos hleft, follow_goto, follow_countRetry, follow_raise,
    raise_retryCnt, herr, hu, sent]

/-- At the ceiling the operation is given up. -/
theorem runs_exhausted (hin : InOperation x) (hq : x.seq = toStage .s2) (hscript : x.script = .device :: rest)
    (hbus : x.device.bus = .started) (hbusy : x.device.busy ≠ 0) (hlast : x.retryCnt + 1 = x.cfg.retryMax.val) :
    Runs 2 x { sent .s2 rest { x.device with busy := x.device.busy - 1 } x.mem toCleanup x with
      retryCnt := x.retryCnt + 1
      errors := x.errors + 2 } := by
  refine runs_primitive hin hq hscript (answers_busy 0 hbus hbusy) fun u b hu _ => ?_
  refine ⟨_, branchOf_s2 (hasStage_s2_of_inOperation hin (op_of_follow hu)) _ _, ?_⟩
  have hret : u.retryCnt = x.retryCnt := congrArg Followed.retryCnt hu
  have hcfg : u.cfg = x.cfg := congrArg Followed.cfg hu
  have herr : u.errors.length = x.errors := congrArg Followed.errors hu
  have hnot : ¬ x.retryCnt + 1 < x.cfg.retryMax.val := by omega
  simp only [selectBranch, busyRetry, hret, hcfg, if_neg hnot, raiseTo, follow_goto, follow_raise, follow_countRetry,
    raise_retryCnt, countRetry_errors, raise_errors, List.length_append, List.length_singleton, herr, hu, sent]

/-- An acknowledged write select leads to the first address byte. -/
theorem runs_selected (hin : InOperation x) (hq : x.seq = toStage .s2) (hscript : x.script = .device :: rest)
    (hbus : x.device.bus = .started) (hbusy : x.device.busy = 0) :
    Runs 2 x (sent .s2 rest
      { x.device with bus := .writing 0, ptr := latchFold x.cfg.addr (selW x.cfg.addr x.off) x.device.ptr } x.mem
      (if addrMode x.cfg.addr = .addr16 then toStage .s3 else toStage .s4) x) := by
  refine runs_primitive hin hq hscript (answers_selected 0 hbus hbusy) fun u b hu _ => ?_
  refine ⟨_, branchOf_s2 (hasStage_s2_of_inOperation hin (op_of_follow hu)) _ _, ?_⟩
  have hcfg : u.cfg = x.cfg := congrArg Followed.cfg hu
  have hgoto : selectBranch (.done .success) u =
      goto (if addrMode u.cfg.addr = .addr16 then toStage .s3 else toStage .s4) u := selectBranch_success u
  rw [hgoto, hcfg, follow_goto, hu]
  rfl

theorem runs_high (hin : InOperation x) (hq : x.seq = toStage .s3) (hscript : x.script = .device :: rest)
    (hbus : x.device.bus = .writing 0) :
    Runs 2 x (sent .s3 rest
      { x.device with bus := .writing 1, ptr := latchAddress x.cfg.addr 0 (addrHi x.off) x.device.ptr } x.mem
      (toStage .s4) x) := by
  have hn : 0 < addrBytes x.cfg.addr := by cases x.cfg.addr <;> simp [addrBytes]
  refine runs_primitive hin hq hscript
    (answers_address_byte 0 (.inl rfl) (decodePrim_primWord_s3 _ _) hbus hn) fun u b hu _ => ?_
  have hop := op_of_follow hu
  refine ⟨goto (toStage .s4) u, ?_, by rw [follow_goto, hu]; rfl⟩
  obtain ⟨-, -, h | h⟩ := hin <;> (simp only [branchOf, hop, h]; rfl)

/-- The acknowledged low address byte leads a read to the repeated start, `INVALIDATE` to its fill loop. -/
theorem runs_low {n : Nat} (hin : InOperation x) (hq : x.seq = toStage .s4) (hscript : x.script = .device :: rest)
    (hbus : x.device.bus = .writing n) (hn : n < addrBytes x.cfg.addr) :
    Runs 2 x { sent .s4 rest
      { x.device with bus := .writing (n + 1), ptr := latchAddress x.cfg.addr n (addrLo x.off) x.device.ptr } x.mem
      (if x.op = .read then toStage .s5 else toStage .vf) x with
      fillCnt := if x.op = .read then x.fillCnt else 0 } := by
  refine runs_primitive hin hq hscript
    (answers_address_byte 0 (.inr rfl) (decodePrim_primWord_s4 _ _) hbus hn) fun u b hu _ => ?_
  have hop := op_of_follow hu
  obtain ⟨-, -, h | h⟩ := hin
  · refine ⟨goto (toStage .s5) u, ?_, ?_⟩
    · simp only [branchOf, hop, h]
      rfl
    · rw [follow_goto, hu]
      simp [sent, h, answered]
  · refine ⟨enterFill u, ?_, ?_⟩
    · simp only [branchOf, hop, h]
      rfl
    · have hf : follow (enterFill u) = { follow u with seq := toStage .vf, fillCnt := 0 } := rfl
      rw [hf, hu]
      simp [sent, h, answered]

theorem runs_restart (hin : InOperation x) (hread : x.op = .read) (hq : x.seq = toStage .s5)
    (hscript : x.script = .device :: rest) :
    Runs 2 x (sent .s5 rest { x.device with bus := .started, wbuf := [] } x.mem (toStage .s6) x) := by
  refine runs_primitive hin hq hscript (answers_restart 0) fun u b hu _ => ?_
  have hop : u.op = .read := (op_of_follow hu).trans hread
  refine ⟨goto (toStage .s6) u, ?_, by rw [follow_goto, hu]; rfl⟩
  simp only [branchOf, hop]
  rfl

theorem runs_read_selected (hin : InOperation x) (hread : x.op = .read) (hq : x.seq = toStage .s6)
    (hscript : x.script = .device :: rest) (hbus : x.device.bus = .started) (hbusy : x.device.busy = 0) :
    Runs 2 x (sent .s6 rest { x.device with bus := .reading } x.mem (toStage .s7) x) := by
  refine runs_primitive hin hq hscript (answers_read_selected 0 hbus hbusy) fun u b hu _ => ?_
  have hop : u.op = .read := (op_of_follow hu).trans hread
  refine ⟨goto (toStage .s7) u, ?_, by rw [follow_goto, hu]; rfl⟩
  simp only [branchOf, hop]
  rfl

/-- The byte at the device's pointer is captured. -/
theorem runs_received (hin : InOperation x) (hread : x.op = .read) (hq : x.seq = toStage .s7)
    (hscript : x.script = .device :: rest) (hbus : x.device.bus = .reading) :
    Runs 2 x { sent .s7 rest { x.device with ptr := x.device.ptr + 1 } x.mem toCleanup x with
      result := Memory.read x.mem (deviceOffset x.cfg.addr x.device.ptr)
      captured := true } := by
  refine runs_primitive hin hq hscript (answers_received hbus) fun u b hu hb => ?_
  have hop : u.op = .read := (op_of_follow hu).trans hread
  refine ⟨goto toCleanup (capture b u), ?_, ?_⟩
  · simp only [branchOf, hop]
    rfl
  · have hf : follow (goto toCleanup (capture b u)) = { follow u with result := b, captured := true, seq := toCleanup } := rfl
    rw [hf, hu, hb rfl]
    rfl

/-- A fill byte is stored and counted. -/
theorem runs_filled {n : Nat} (hin : InOperation x) (hinval : x.op = .inval) (hq : x.seq = toStage .vf)
    (hscript : x.script = .device :: rest) (hbus : x.device.bus = .writing n) (hn : addrBytes x.cfg.addr ≤ n)
    (hprot : x.device.writeProtected = false) :
    Runs 2 x { sent .vf rest
      { x.device with
        bus := .writing (n + 1), ptr := x.device.ptr + 1, wbuf := x.device.wbuf ++ [fillByte] }
      (Memory.write x.mem (BitVec.ofNat 16 (deviceOffset x.cfg.addr x.device.ptr)) fillByte)
      (if x.fillCnt + 1 < fillSize then toStage .vf else toCleanup) x with
      fillCnt := x.fillCnt + 1 } := by
  refine runs_primitive hin hq hscript (answers_filled 0 hbus hn hprot) fun u b hu _ => ?_
  have hop : u.op = .inval := (op_of_follow hu).trans hinval
  have hfill : u.fillCnt = x.fillCnt := congrArg Followed.fillCnt hu
  refine ⟨fillNext u, ?_, ?_⟩
  · simp only [branchOf, hop]
    rfl
  · have hf : follow (fillNext u) = { follow u with
        fillCnt := u.fillCnt + 1, seq := if u.fillCnt + 1 < fillSize then toStage .vf else toCleanup } := rfl
    rw [hf, hu, hfill]
    rfl

end Stages

end Sys2Proof.Machine
end

section
/-! The parts of an operation with the chosen device (assumption log 10): the refused selections, the address, the read, the
fill loop, and the end. -/

namespace Sys2Proof.Machine

/-! ### The parts of an operation -/

theorem Runs.of_eq {m n : Nat} {x y z : Followed} (h : Runs m x y) (hn : m = n) (hy : y = z) : Runs n x z := by
  subst hn hy
  exact h

/-- Refused selections and the start after them: the trace, the counts, and the device about to be selected once more. -/
def selecting (k : Nat) (rest : List EnvMove) (x : Followed) : Followed :=
  { x with
    seq := toStage .s2
    retryCnt := x.retryCnt + k
    errors := x.errors + k
    trace := x.trace ++ (List.replicate k [.start, .write (selW x.cfg.addr x.off)]).flatten ++ [.start]
    script := rest
    outstanding := []
    device := { x.device with bus := .started, wbuf := [], busy := x.device.busy - k } }

/-- The events of a frame's write select and address (30_encoding.md R65). -/
def addressEvents (a : AddrCfg) (off : Offset) : List BusEvent :=
  [.write (selW a off)] ++ (if addrMode a = .addr16 then [.write (addrHi off)] else []) ++ [.write (addrLo off)]

/-- The write select and the address acknowledged. -/
def addressed (rest : List EnvMove) (x : Followed) : Followed :=
  { x with
    seq := if x.op = .read then toStage .s5 else toStage .vf
    fillCnt := if x.op = .read then x.fillCnt else 0
    trace := x.trace ++ addressEvents x.cfg.addr x.off
    script := rest
    outstanding := []
    device := { x.device with bus := .writing (addrBytes x.cfg.addr), ptr := sentPtr x.cfg.addr x.off } }

/-- The byte read and captured. -/
def readDone (rest : List EnvMove) (x : Followed) : Followed :=
  { x with
    seq := toCleanup
    result := Memory.read x.mem (deviceOffset x.cfg.addr x.device.ptr)
    captured := true
    trace := x.trace ++ [.restart, .write (selR x.cfg.addr x.off), .read]
    script := rest
    outstanding := []
    device := { x.device with bus := .reading, wbuf := [], ptr := x.device.ptr + 1 } }

/-- Fill bytes stored at offsets `i`, `i + 1` and on. -/
def fillMem : Nat → Nat → Memory → Memory
  | _, 0, m => m
  | i, k + 1, m => fillMem (i + 1) k (Memory.write m (BitVec.ofNat 16 i) fillByte)

/-- The rest of the fill loop, `k` bytes. -/
def fillDone (k : Nat) (rest : List EnvMove) (x : Followed) : Followed :=
  { x with
    seq := toCleanup
    fillCnt := x.fillCnt + k
    trace := x.trace ++ List.replicate k (.write fillByte)
    script := rest
    outstanding := []
    device := { x.device with
      bus := .writing (addrBytes x.cfg.addr + (x.fillCnt + k))
      ptr := BitVec.ofNat 16 (x.fillCnt + k)
      wbuf := x.device.wbuf ++ List.replicate k fillByte }
    mem := fillMem x.fillCnt k x.mem }

theorem runs_to_selecting {rest : List EnvMove} (k : Nat) : ∀ {x : Followed}, InOperation x → x.seq = toStage .s1 →
    x.script = List.replicate (2 * k + 1) .device ++ rest → k ≤ x.device.busy → x.retryCnt + k < x.cfg.retryMax.val →
    Runs (4 * k + 2) x (selecting k rest x) := by
  induction k with
  | zero =>
    intro x hin hq hscript _ _
    refine (runs_start hin hq hscript).of_eq rfl ?_
    simp [selecting, sent, answered, eventOf]
  | succ k ih =>
    intro x hin hq hscript hbusy hleft
    have hscript' : x.script = .device :: .device :: (List.replicate (2 * k + 1) .device ++ rest) := by
      rw [hscript, show 2 * (k + 1) + 1 = 2 * k + 1 + 1 + 1 by omega]
      rfl
    have hstart := runs_start hin hq hscript'
    have hnz : x.device.busy ≠ 0 := by omega
    have hlt : x.retryCnt + 1 < x.cfg.retryMax.val := by omega
    have hbusy' : k ≤ x.device.busy - 1 := by omega
    have hleft' : x.retryCnt + 1 + k < x.cfg.retryMax.val := by omega
    refine (hstart.trans ((runs_refused (by exact hin) rfl rfl rfl (by exact hnz)
      (by exact hlt)).trans (ih (by exact hin) rfl rfl (by exact hbusy') (by exact hleft')))).of_eq ?_ ?_
    · omega
    have hret : x.retryCnt + 1 + k = x.retryCnt + (k + 1) := by omega
    have herr : x.errors + 1 + k = x.errors + (k + 1) := by omega
    have hleftover : x.device.busy - 1 - k = x.device.busy - (k + 1) := by omega
    simp [selecting, sent, answered, eventOf, hret, herr, hleftover, List.replicate_succ]

/-- The write select and the address, in both addressing variants (30_encoding.md R73). -/
theorem runs_addressed {x : Followed} {rest : List EnvMove} (hin : InOperation x) (hq : x.seq = toStage .s2)
    (hscript : x.script = List.replicate (1 + addrBytes x.cfg.addr) .device ++ rest) (hbus : x.device.bus = .started)
    (hbusy : x.device.busy = 0) : Runs (2 * (1 + addrBytes x.cfg.addr)) x (addressed rest x) := by
  cases ha : x.cfg.addr with
  | addr16 cls =>
    have hscript' : x.script = .device :: .device :: .device :: rest := by rw [hscript, ha]; rfl
    have hmode : addrMode x.cfg.addr = .addr16 := by rw [ha]; rfl
    have hbytes : 1 < addrBytes x.cfg.addr := by simp [ha, addrBytes]
    have hsel := runs_selected hin hq hscript' hbus hbusy
    rw [if_pos hmode] at hsel
    refine (hsel.trans ((runs_high (by exact hin) rfl rfl rfl).trans
      (runs_low (by exact hin) rfl rfl rfl (by exact hbytes)))).of_eq ?_ ?_
    · rfl
    simp [addressed, addressEvents, sent, answered, eventOf, ha, addrMode, addrBytes, latch_addr16]
  | addr8f cls =>
    have hscript' : x.script = .device :: .device :: rest := by rw [hscript, ha]; rfl
    have hmode : addrMode x.cfg.addr ≠ .addr16 := by simp [ha, addrMode]
    have hbytes : 0 < addrBytes x.cfg.addr := by simp [ha, addrBytes]
    have hsel := runs_selected hin hq hscript' hbus hbusy
    rw [if_neg hmode] at hsel
    refine (hsel.trans (runs_low (by exact hin) rfl rfl rfl (by exact hbytes))).of_eq ?_ ?_
    · rfl
    simp [addressed, addressEvents, sent, answered, eventOf, ha, addrMode, addrBytes, latch_addr8f]

theorem runs_read {x : Followed} {rest : List EnvMove} (hin : InOperation x) (hread : x.op = .read)
    (hq : x.seq = toStage .s5) (hscript : x.script = .device :: .device :: .device :: rest) (hbusy : x.device.busy = 0) :
    Runs 6 x (readDone rest x) := by
  refine ((runs_restart hin hread hq hscript).trans ((runs_read_selected (by exact hin) (by exact hread) rfl rfl rfl
    (by exact hbusy)).trans
    (runs_received (by exact hin) (by exact hread) rfl rfl rfl))).of_eq ?_ ?_
  · rfl
  simp [readDone, sent, answered, eventOf]

/-! ### The fill loop -/

theorem wf_fillMem {m : Memory} (i k : Nat) (hm : Memory.wf m = true) : Memory.wf (fillMem i k m) = true := by
  induction k generalizing i m with
  | zero => exact hm
  | succ k ih => exact ih (i + 1) (Memory.wf_write _ _ hm)

theorem read_fillMem {m : Memory} {i k a : Nat} (hm : Memory.wf m = true) (hk : i + k ≤ 65536) :
    Memory.read (fillMem i k m) a = if i ≤ a ∧ a < i + k then fillByte else Memory.read m a := by
  induction k generalizing i m with
  | zero =>
    rw [if_neg (by omega)]
    rfl
  | succ k ih =>
    have hi : (BitVec.ofNat 16 i).toNat = i := by rw [BitVec.toNat_ofNat, Nat.mod_eq_of_lt (by omega)]
    rw [fillMem, ih (Memory.wf_write _ _ hm) (by omega), Memory.read_write _ _ _ hm, hi]
    by_cases hai : a = i
    · rw [if_neg (by omega), if_pos hai, if_pos (by omega)]
    · rw [if_neg hai]
      by_cases hin : i + 1 ≤ a ∧ a < i + 1 + k
      · rw [if_pos hin, if_pos (by omega)]
      · rw [if_neg hin, if_neg (by omega)]

/-- The block's offsets are the device's in both addressing variants. -/
theorem deviceOffset_ofNat (a : AddrCfg) {i : Nat} (hi : i < fillSize) : deviceOffset a (BitVec.ofNat 16 i) = i := by
  simp only [fillSize] at hi
  cases a with
  | addr16 cls =>
    simp only [deviceOffset, BitVec.toNat_ofNat]
    omega
  | addr8f cls =>
    simp only [deviceOffset, BitVec.extractLsb'_toNat, BitVec.toNat_ofNat, Nat.shiftRight_zero]
    omega

theorem runs_fills {rest : List EnvMove} (k : Nat) : ∀ {x : Followed}, InOperation x → x.op = .inval →
    x.seq = toStage .vf → x.script = List.replicate (k + 1) .device ++ rest → x.fillCnt + (k + 1) = fillSize →
    x.device.bus = .writing (addrBytes x.cfg.addr + x.fillCnt) → x.device.writeProtected = false →
    x.device.ptr = BitVec.ofNat 16 x.fillCnt → Runs (2 * (k + 1)) x (fillDone (k + 1) rest x) := by
  induction k with
  | zero =>
    intro x hin hop hq hscript hfill hbus hprot hptr
    have hlast : ¬ x.fillCnt + 1 < fillSize := by omega
    refine (runs_filled hin hop hq hscript hbus (Nat.le_add_right _ _) hprot).of_eq rfl ?_
    rw [hptr, deviceOffset_ofNat _ (by omega), if_neg hlast]
    simp [fillDone, sent, answered, eventOf, fillMem, Nat.add_assoc, BitVec.ofNat_add]
  | succ k ih =>
    intro x hin hop hq hscript hfill hbus hprot hptr
    have hmore : x.fillCnt + 1 < fillSize := by omega
    have hfirst := runs_filled hin hop hq hscript hbus (Nat.le_add_right _ _) hprot
    rw [hptr, deviceOffset_ofNat _ (by omega), if_pos hmore] at hfirst
    have hcount : x.fillCnt + 1 + (k + 1) = fillSize := by omega
    have hptr' : BitVec.ofNat 16 x.fillCnt + 1 = BitVec.ofNat 16 (x.fillCnt + 1) := by simp [BitVec.ofNat_add]
    refine (hfirst.trans (ih (by exact hin) (by exact hop) rfl rfl (by exact hcount) (by exact rfl)
      (by exact hprot) (by exact hptr'))).of_eq ?_ ?_
    · omega
    have hsum : x.fillCnt + 1 + (k + 1) = x.fillCnt + (k + 1 + 1) := by omega
    simp only [fillDone, sent, answered, eventOf, hsum, List.append_assoc]
    rfl

/-! ### The end of an operation -/

/-- `STOP` handed over and the response given. -/
def responded (x : Followed) : Followed :=
  { x with
    seq := .ready
    op := .none
    trace := x.trace ++ [.stop]
    outstanding := x.outstanding ++ [0x300]
    device := { x.device with
      bus := .free
      wbuf := []
      busy := if x.device.wbuf = [] then x.device.busy else x.device.writeTime } }

/-- What a state that an operation has responded in has of the operation. -/
structure Responded (x : Followed) (t : State) : Prop where
  follows  : follow t = responded x
  mem      : t.mem = x.mem
  rspValid : t.rspValid = true
  rspData  : x.op = .read → t.rspData = x.result
  ready    : cmdReady t = true

section Responded

variable {x : Followed} {t : State} (h : Responded x t)
include h

theorem Responded.captured : t.captured = x.captured := congrArg Followed.captured h.follows
theorem Responded.retryCnt : t.retryCnt = x.retryCnt := congrArg Followed.retryCnt h.follows
theorem Responded.fillCnt : t.fillCnt = x.fillCnt := congrArg Followed.fillCnt h.follows
theorem Responded.errors : t.errors.length = x.errors := congrArg Followed.errors h.follows
theorem Responded.trace : t.trace = x.trace ++ [.stop] := congrArg Followed.trace h.follows
theorem Responded.rst : t.rst = x.rst := congrArg Followed.rst h.follows
theorem Responded.seq : t.seq = .ready := congrArg Followed.seq h.follows
theorem Responded.ctlEn : t.ctlEn = x.ctlEn := congrArg Followed.ctlEn h.follows
theorem Responded.cfg : t.cfg = x.cfg := congrArg Followed.cfg h.follows
theorem Responded.program : t.program = x.program := congrArg Followed.program h.follows
theorem Responded.script : t.script = x.script := congrArg Followed.script h.follows
theorem Responded.requests : t.hidden.requests = x.outstanding ++ [0x300] := congrArg Followed.outstanding h.follows

theorem Responded.busy : (serve t.cfg.addr t.hidden t.mem).hidden.busy =
    if x.device.wbuf = [] then x.device.busy else x.device.writeTime :=
  congrArg (fun y => y.device.busy) h.follows

theorem Responded.writeProtected : t.hidden.writeProtected = x.device.writeProtected :=
  (serve_same t.cfg.addr t.hidden t.mem).2.2.symm.trans (congrArg (fun y => y.device.writeProtected) h.follows)

end Responded

/-- Cleanup and the response. -/
theorem run_responded {s : State} {x : Followed} (hs : follow s = x) (hr : x.rst = false) (hq : x.seq = toCleanup)
    (hout : x.outstanding = []) : ∃ t, Host.Core.run core 2 s = .next t ∧ Responded x t := by
  subst hs
  have hstop : step s = .next (issued .cleanup s) := step_of_issue hr hq
  have hrespond : step (issued .cleanup s) = .next (respond (beginStep (issued .cleanup s))) := step_of_respond hr rfl
  have hreq : s.hidden.requests = [] := hout
  obtain ⟨hdev, hmem, -⟩ := serve_nothing (a := s.cfg.addr) (m := s.mem) hreq
  obtain ⟨hmem', -, hdev'⟩ := serve_stop (a := s.cfg.addr) (h := { s.hidden with requests := [0x300#10] }) (m := s.mem) rfl
  dsimp only at hmem' hdev'
  have hword : primWord s.cfg.addr s.off .cleanup = 0x300#10 := rfl
  have hevent : busEvent 0x300#10 .stopped = .stop := by decide
  refine ⟨_, (run_succ hstop 1).trans (run_one hrespond), ?_⟩
  exact
    { follows := by
        simp [follow, responded, respond, issued, phaseOf, hword, hevent, afterIssue, hreq, hdev, hmem, hmem', hdev']
      mem := by simp [follow, respond, issued, hmem]
      rspValid := by simp [respond]
      rspData := fun hop => if_pos hop
      ready := by simp [cmdReady, respond] }

end Sys2Proof.Machine
end

section
/-! Whole operations with the chosen device (assumption log 10): the statements of 95_test_vectors.md X4 to X7. -/

namespace Sys2Proof.Machine

/-! ### Acceptance -/

/-- `READ_BYTE off` accepted from the command port. -/
def reading (rest : List CmdWord) (off : Offset) (x : Followed) : Followed :=
  { x with
    seq := toStage .s1
    op := .read
    off := off
    result := failSentinel
    retryCnt := 0
    captured := false
    errors := 0
    trace := []
    program := rest }

/-- `INVALIDATE` accepted from the command port. -/
def invalidating (rest : List CmdWord) (x : Followed) : Followed :=
  { x with
    seq := toStage .s1
    op := .inval
    off := 0
    retryCnt := 0
    errors := 0
    trace := []
    program := rest }

theorem run_accepts_read {s : State} {w : CmdWord} {rest : List CmdWord} {off : Offset} (hr : s.rst = false)
    (hq : s.seq = .ready) (hc : cmdReady s = true) (hen : s.ctlEn = true) (hp : s.program = w :: rest)
    (hd : decodeCmd w = .ok (.readByte off)) :
    ∃ t, Host.Core.run core 1 s = .next t ∧ follow t = reading rest off (follow s) := by
  have haccept := (step_of_presented hr hq hc hp hd).trans (exec_readByte_of_ctlEn (by exact hen) off)
  exact ⟨_, run_one haccept, by simp [follow, reading, readAccepted]⟩

theorem run_accepts_invalidate {s : State} {w : CmdWord} {rest : List CmdWord} (hr : s.rst = false)
    (hq : s.seq = .ready) (hc : cmdReady s = true) (hen : s.ctlEn = true) (hp : s.program = w :: rest)
    (hd : decodeCmd w = .ok .invalidate) :
    ∃ t, Host.Core.run core 1 s = .next t ∧ follow t = invalidating rest (follow s) := by
  have haccept := (step_of_presented hr hq hc hp hd).trans (exec_invalidate_of_ctlEn (by exact hen))
  exact ⟨_, run_one haccept, by simp [follow, invalidating]⟩

/-- An operation accepted, followed to cleanup, and ended. -/
theorem run_operation {n : Nat} {s : State} {x y : Followed}
    (haccept : ∃ t, Host.Core.run core 1 s = .next t ∧ follow t = x) (hruns : Runs n x y) (hr : y.rst = false)
    (hq : y.seq = toCleanup) (hout : y.outstanding = []) :
    ∃ t, Host.Core.run core (1 + (n + 2)) s = .next t ∧ Responded y t := by
  obtain ⟨u, hu, hfollow⟩ := haccept
  obtain ⟨v, hv, hy⟩ := hruns u hfollow
  obtain ⟨t, ht, hres⟩ := run_responded hy hr hq hout
  exact ⟨t, (run_add hu).trans ((run_add hv).trans ht), hres⟩

/-! ### The two operations up to cleanup -/

/-- The write select, acknowledged after `b` refusals, and the address. -/
theorem runs_frame {x : Followed} {rest : List EnvMove} {b : Nat} (hin : InOperation x) (hq : x.seq = toStage .s1)
    (hb : x.device.busy = b) (hleft : x.retryCnt + b < x.cfg.retryMax.val)
    (hscript : x.script = List.replicate (2 * b + 1) .device ++ (List.replicate (1 + addrBytes x.cfg.addr) .device ++ rest)) :
    Runs (4 * b + 2 + 2 * (1 + addrBytes x.cfg.addr)) x
      (addressed rest (selecting b (List.replicate (1 + addrBytes x.cfg.addr) .device ++ rest) x)) := by
  have hnot_busy : x.device.busy - b = 0 := by omega
  exact (runs_to_selecting b hin hq hscript (Nat.le_of_eq hb.symm) hleft).trans
    (runs_addressed (by exact hin) rfl rfl rfl (by exact hnot_busy))

/-- Settles O55: a read is followed through its refused selections, its frame and its end. -/
theorem readReturnsStoredByte : Obligations.ReadReturnsStoredByte := by
  rintro s w rest off moves r hr hq hc hen hp hd hrows rfl hbusy hscript
  generalize hb : (serve s.cfg.addr s.hidden s.mem).hidden.busy = b at *
  have hin : InOperation (reading rest off (follow s)) := ⟨hr, hrows, .inl rfl⟩
  have hsplit : s.script = List.replicate (2 * b + 1) .device ++
      (List.replicate (1 + addrBytes s.cfg.addr) .device ++ (List.replicate 3 .device ++ moves)) := by
    rw [hscript, ← List.append_assoc, ← List.append_assoc, List.replicate_append_replicate, List.replicate_append_replicate]
    congr 2
    omega
  have hleft : 0 + b < s.cfg.retryMax.val := by omega
  have hzero : (serve s.cfg.addr s.hidden s.mem).hidden.busy - b = 0 := by omega
  have hruns := (runs_frame hin rfl hb hleft hsplit).trans
    (runs_read (rest := moves) (by exact hin) rfl rfl rfl (by exact hzero))
  obtain ⟨t, hrun, hres⟩ := run_operation (run_accepts_read hr hq hc hen hp hd) hruns hr rfl rfl
  refine ⟨t, ?_, hres.rspValid, ?_, hres.captured, ?_, ?_, hres.mem, ?_, hres.rst.trans hr, hres.seq, hres.ready,
    hres.ctlEn.trans hen, hres.cfg, hres.program, hres.script, hres.requests, ?_⟩
  · rw [← hrun]
    congr 1
    simp only [reading, follow]
    omega
  · refine (hres.rspData rfl).trans ?_
    exact congrArg (Memory.read _) (deviceOffset_sentPtr _ _)
  · exact hres.retryCnt.trans (Nat.zero_add b)
  · exact hres.errors.trans (Nat.zero_add b)
  · rw [hres.trace]
    simp [readDone, addressed, addressEvents, selecting, reading, follow]
  · rw [hres.busy]
    exact hzero

/-- Settles O56: the last selection the ceiling permits is refused, and the read is given up. -/
theorem busyBeyondCeilingFailsTheRead : Obligations.BusyBeyondCeilingFailsTheRead := by
  rintro s w rest off moves r hr hq hc hen hp hd hrows rfl hbusy hscript
  have hin : InOperation (reading rest off (follow s)) := ⟨hr, hrows, .inl rfl⟩
  obtain ⟨k, hk⟩ : ∃ k, s.cfg.retryMax.val = k + 1 := ⟨s.cfg.retryMax.pred, rfl⟩
  rw [hk] at hbusy hscript
  have hsplit : s.script = List.replicate (2 * k + 1) .device ++ (.device :: moves) := by
    rw [hscript, List.append_cons, ← List.replicate_succ']
    rfl
  have hle : k ≤ (serve s.cfg.addr s.hidden s.mem).hidden.busy := by omega
  have hleft : 0 + k < s.cfg.retryMax.val := by omega
  have hstill : (serve s.cfg.addr s.hidden s.mem).hidden.busy - k ≠ 0 := by omega
  have hlast : 0 + k + 1 = s.cfg.retryMax.val := by omega
  have hruns := (runs_to_selecting k hin rfl hsplit hle hleft).trans
    (runs_exhausted (by exact hin) rfl rfl rfl (by exact hstill) (by exact hlast))
  obtain ⟨t, hrun, hres⟩ := run_operation (run_accepts_read hr hq hc hen hp hd) hruns hr rfl rfl
  refine ⟨t, ?_, hres.rspValid, hres.rspData rfl, hres.captured, hres.retryCnt.trans hlast, hres.mem, ?_,
    hres.rst.trans hr, hres.seq, hres.ready, hres.ctlEn.trans hen, hres.cfg, hres.program, hres.script, hres.requests, ?_⟩
  · rw [← hrun]
    congr 1
    omega
  · rw [hres.trace, hk, List.replicate_succ']
    simp [sent, answered, eventOf, selecting, reading, follow]
  · rw [hres.busy, hk]
    exact Nat.sub_sub ..

/-- Settles O57: `INVALIDATE` is followed through its refused selections, its address, its eight fill bytes and its end. -/
theorem invalidateErasesTheBlock : Obligations.InvalidateErasesTheBlock := by
  rintro s w rest moves r hr hq hc hen hp hd hrows rfl hbusy hprot hwf hscript
  generalize hb : (serve s.cfg.addr s.hidden s.mem).hidden.busy = b at *
  obtain ⟨-, hwrite, hprotect⟩ := serve_same s.cfg.addr s.hidden s.mem
  have hwf' := wf_serve s.cfg.addr s.hidden s.mem hwf
  have hin : InOperation (invalidating rest (follow s)) := ⟨hr, hrows, .inr rfl⟩
  have hsplit : s.script = List.replicate (2 * b + 1) .device ++
      (List.replicate (1 + addrBytes s.cfg.addr) .device ++ (List.replicate 8 .device ++ moves)) := by
    rw [hscript, ← List.append_assoc, ← List.append_assoc, List.replicate_append_replicate, List.replicate_append_replicate]
    congr 2
    omega
  have hleft : 0 + b < s.cfg.retryMax.val := by omega
  have hruns := (runs_frame hin rfl hb hleft hsplit).trans
    (runs_fills (rest := moves) 7 (by exact hin) rfl rfl rfl rfl rfl (by exact hprotect.trans hprot)
      (by exact sentPtr_zero s.cfg.addr))
  obtain ⟨t, hrun, hres⟩ := run_operation (run_accepts_invalidate hr hq hc hen hp hd) hruns hr rfl rfl
  have hmem : t.mem = fillMem 0 8 (serve s.cfg.addr s.hidden s.mem).mem := hres.mem
  refine ⟨t, ?_, hres.rspValid, hres.fillCnt, hres.retryCnt.trans (Nat.zero_add b), ?_, fun a ha => ?_, fun a ha => ?_, ?_,
    hres.rst.trans hr, hres.seq, hres.ready, hres.ctlEn.trans hen, hres.cfg, hres.program, hres.script, hres.requests,
    hres.writeProtected.trans (hprotect.trans hprot), ?_⟩
  · rw [← hrun]
    congr 1
    simp only [invalidating, follow]
    omega
  · rw [hmem]
    exact wf_fillMem 0 8 hwf'
  · rw [hmem, read_fillMem hwf' (by omega), if_pos (by omega)]
    rfl
  · rw [hmem, read_fillMem hwf' (by omega), if_neg (by omega)]
  · rw [hres.trace]
    cases ha : s.cfg.addr <;>
      simp [fillDone, addressed, addressEvents, selecting, invalidating, follow, ha, addrMode, addrBytes, fillByte]
  · rw [hres.busy]
    exact hwrite

end Sys2Proof.Machine
end
